-- ==== Sys2Proof/Word.lean ====
section
/-! DEFINITION. The word types of the frame unit (00_scope.md R7, 30_encoding.md R56, R58, R59, 10_state.md R36):
names for the widths the spec writes, and nothing else. -/

namespace Sys2Proof

/-- The serial byte and the pulse accumulator are 8 bits wide (R13, R60). -/
abbrev Byte := BitVec 8

/-- The event word `EW[11:0]` (R59): one operation per word. -/
abbrev EventWord := BitVec 12

/-- The input pin vector `IN[12:0]` (R56): one sample of the input ports per rising edge of `sysclk`. -/
abbrev PinVector := BitVec 13

/-- The output pin vector `OUT[5:0]` (R58). -/
abbrev OutVector := BitVec 6

/-- The snapshot word `SNAP[23:0]` (R36). -/
abbrev SnapWord := BitVec 24

/-- The index of a frame element, 0 to 3 (R12, R44). -/
abbrev BitIndex := Fin 4

end Sys2Proof
end

