-- ==== Sys2Proof/Syntax.lean ====
section
/-! DEFINITION. The nine operations of the frame unit (30_encoding.md R62), one constructor per row of
spec/opcode_table.json. -/

namespace Sys2Proof

/-- An operation of the frame unit. Only `SER` has an operand, the serial byte (R60, R61). -/
inductive Instr where
  /-- `NOP`: no event (R106). -/
  | nop
  /-- `CLK`: a clock-line edge, one bit period has begun (R76). -/
  | clk
  /-- `DAT`: a data-line edge, one pulse (R79). -/
  | dat
  /-- `BTN`: a button press (R81). -/
  | btn
  /-- `SER b`: the serial receiver delivered the byte `b` (R82). -/
  | ser (b : Byte)
  /-- `PMATCH`: compare-match of the period timer (R93). -/
  | pmatch
  /-- `CMATCH`: compare-match of the carrier timer (R94). -/
  | cmatch
  /-- `RST`: reset (R105). -/
  | rst
  /-- `TICK`: one `sysclk` cycle of the two timing sources (R95). -/
  | tick
  deriving DecidableEq, Repr

/-- The two profiles of the machine (00_scope.md R9). -/
inductive Profile where
  | untimed
  | timed
  deriving DecidableEq, Repr

end Sys2Proof
end

