-- ==== Sys2Proof/WellFormed.lean ====
section
/-! DEFINITION. The checks on what a trace may hold. An `Instr` has no ill-formed term (its one operand is a byte by its
type), so the checks are about the words a trace is written in (30_encoding.md R63, R64) and about which
operation a profile's trace may name (R9, R65). They are written on the word's number, apart from the decoder. -/

namespace Sys2Proof

namespace EventWord

/-- R63: `op` is one of the nine opcodes 0x0 to 0x8. -/
def opIsAssigned (w : EventWord) : Bool := w.toNat / 256 ≤ 8

/-- R64: `arg` is 0 unless the word is a `SER` word. -/
def argIsAllowed (w : EventWord) : Bool := w.toNat / 256 == 4 || w.toNat % 256 == 0

/-- The word names an operation: it is not reserved (R63, R64). -/
def wellFormed (w : EventWord) : Bool := opIsAssigned w && argIsAllowed w

end EventWord

/-- The operations a trace of the profile may name (R9, R65): an untimed trace does not use `TICK`; a timed trace written in
event words names the operations of its cycles (R57, R107), so not `PMATCH`, `CMATCH` or `NOP`. Which sequences of them
are cycles: `Machine.wholeCycles`. -/
def Instr.allowedIn (i : Instr) : Profile → Bool
  | .untimed => i != .tick
  | .timed => i != .pmatch && i != .cmatch && i != .nop

end Sys2Proof
end

