-- ==== Sys2Proof/Decode.lean ====
section
/-! DEFINITION. Event words to operations and back (30_encoding.md R59, R62 to R64, R69), and the opcode table as data. -/

namespace Sys2Proof

/-- `op[3:0]`, bits 11:8 of the event word (R59). -/
def EventWord.opField (w : EventWord) : BitVec 4 := w.extractLsb' 8 4

/-- `arg[7:0]`, bits 7:0 of the event word (R59). -/
def EventWord.argField (w : EventWord) : Byte := w.extractLsb' 0 8

/-- Why a word is refused. Both are safe: a trace that holds the word is not a run of the hardware (R63, R64). -/
inductive DecodeError where
  /-- `op` is 0x9 to 0xF (R63). -/
  | reservedOp (w : EventWord)
  /-- `op` names an operation without operand and `arg` is not 0 (R64). -/
  | reservedArg (w : EventWord)
  deriving DecidableEq, Repr

/-- R69, total on the 4096 words. The reason of a refusal follows the sets of R63 and R64 (notes/assumptions/9.md). -/
def decode (w : EventWord) : Except DecodeError Instr :=
  if w.opField = 0x4 then .ok (.ser w.argField)
  else if 0x9 ≤ w.opField then .error (.reservedOp w)
  else if w.argField ≠ 0 then .error (.reservedArg w)
  else if w.opField = 0x0 then .ok .nop
  else if w.opField = 0x1 then .ok .clk
  else if w.opField = 0x2 then .ok .dat
  else if w.opField = 0x3 then .ok .btn
  else if w.opField = 0x5 then .ok .pmatch
  else if w.opField = 0x6 then .ok .cmatch
  else if w.opField = 0x7 then .ok .rst
  else .ok .tick

/-- The column `op` of R62. -/
def Instr.opcode : Instr → BitVec 4
  | .nop => 0x0
  | .clk => 0x1
  | .dat => 0x2
  | .btn => 0x3
  | .ser _ => 0x4
  | .pmatch => 0x5
  | .cmatch => 0x6
  | .rst => 0x7
  | .tick => 0x8

/-- The column `operand` of R62: the serial byte, or 0 (R64). -/
def Instr.argument : Instr → Byte
  | .ser b => b
  | .nop | .clk | .dat | .btn | .pmatch | .cmatch | .rst | .tick => 0

/-- The one event word of an operation (R59, R64). -/
def encode (i : Instr) : EventWord := i.opcode ++ i.argument

/-- One row of the opcode table of R62: a word is the operation iff `w and mask = match`. -/
structure OpRow where
  matchBits : EventWord
  maskBits : EventWord
  deriving DecidableEq, Repr

/-- `w and mask = match` (R62). -/
def OpRow.accepts (r : OpRow) (w : EventWord) : Bool := w &&& r.maskBits == r.matchBits

/-- The row of the opcode table an operation stands in (R62). -/
def Instr.row : Instr → OpRow
  | .nop => ⟨0x000, 0xFFF⟩
  | .clk => ⟨0x100, 0xFFF⟩
  | .dat => ⟨0x200, 0xFFF⟩
  | .btn => ⟨0x300, 0xFFF⟩
  | .ser _ => ⟨0x400, 0xF00⟩
  | .pmatch => ⟨0x500, 0xFFF⟩
  | .cmatch => ⟨0x600, 0xFFF⟩
  | .rst => ⟨0x700, 0xFFF⟩
  | .tick => ⟨0x800, 0xFFF⟩

/-- The nine rows of R62 in the table's order. -/
def opcodeTable : List OpRow :=
  [Instr.nop.row, Instr.clk.row, Instr.dat.row, Instr.btn.row, (Instr.ser 0).row,
   Instr.pmatch.row, Instr.cmatch.row, Instr.rst.row, Instr.tick.row]

/-- The event word that a number of the opcode table stands for, the bits from `nbits` up taken as 0. A number of more
than 12 bits is no event word: the reserved word 0xFFF stands for it, which `decode` refuses
(DESIGN CHOICE, safe, notes/assumptions/10.md). -/
def tableWord (nbits w : Nat) : EventWord :=
  if w % 2 ^ nbits < 4096 then BitVec.ofNat 12 (w % 2 ^ nbits) else 0xFFF

/-- The operation the decoder reads from a number of the opcode table. -/
def decodeTableWord (nbits w : Nat) : Option Instr :=
  match decode (tableWord nbits w) with
  | .ok i => some i
  | .error _ => none

end Sys2Proof
end

