-- ==== Sys2Proof/Config.lean ====
section
/-! DEFINITION. What is fixed when the hardware is built and left OPEN by the spec (00_scope.md R6, 41_bit_timer.md
R101, 92_eei_decisions.md D24): the clock frequency and the three timer constants. Every operation that needs them
takes them as an argument; the machine's own instance is a constant without a body, so that no proof can lean on
its values (notes/assumptions/4.md). -/

namespace Sys2Proof

/-- The OPEN parameters of R6. The three targets are integers at least 1 (R101). That `F_IN` too is a whole number of Hz and
not 0 is the model's own choice: R6 gives it no type and no bound (DESIGN CHOICE, notes/assumptions/17.md). -/
structure TimerParams where
  /-- `F_IN`, the frequency of `sysclk`, taken as a positive whole number of Hz (DESIGN CHOICE, notes/assumptions/17.md). No
  operation reads it; it turns cycles into seconds (R97, R98). -/
  fIn : ℕ+
  /-- `PRESCALE`, the prescaler divisor of the period timer. -/
  prescale : ℕ+
  /-- `PERIOD_TARGET`, the prescaled ticks of one burst. -/
  periodTarget : ℕ+
  /-- `CARRIER_TARGET`, the `sysclk` cycles between two toggles of `tx`. -/
  carrierTarget : ℕ+
  deriving DecidableEq, Repr, Inhabited

namespace TimerParams

/-- `L = PRESCALE × PERIOD_TARGET`, the length of a burst in cycles (R97). -/
def burstCycles (p : TimerParams) : Nat := p.prescale * p.periodTarget

/-- The length of a burst in seconds, `L / F_IN` (R97). -/
def burstSeconds (p : TimerParams) : ℚ := (p.burstCycles : ℚ) / (p.fIn : ℚ)

/-- The toggles of `tx` per second within a burst, `F_IN / C` (R98). -/
def togglesPerSecond (p : TimerParams) : ℚ := (p.fIn : ℚ) / (p.carrierTarget : ℚ)

/-- The width of a counter that counts modulo `target`: the smallest that holds `target - 1` (R6). -/
def counterWidth (target : ℕ+) : Nat := Nat.size ((target : Nat) - 1)

/-- `PRE_W` (R6, R23). -/
def preW (p : TimerParams) : Nat := counterWidth p.prescale

/-- `PER_W` (R6, R24). -/
def perW (p : TimerParams) : Nat := counterWidth p.periodTarget

/-- `CAR_W` (R6, R25). -/
def carW (p : TimerParams) : Nat := counterWidth p.carrierTarget

/-- The instance that R6 and D24 recommend. An illustration only: no operation and no statement uses it. -/
def recommended : TimerParams :=
  { fIn := 3686400, prescale := 4, periodTarget := 915, carrierTarget := 18 }

end TimerParams

/-- The constants of the machine under study. R6 leaves them OPEN and R101 forbids a model to fix them, so this
constant has no body: a claim about the machine holds whatever they are. DESIGN CHOICE, safe (notes/assumptions/4.md). -/
opaque Config.timer : TimerParams

end Sys2Proof
end

