-- ==== Sys2Proof/Machine/State.lean ====
section
/-! DEFINITION. The state of the frame unit (10_state.md R10, R38): the sixteen architectural items, and two fields
of the model's own, the inputs not yet delivered and the output records emitted so far. -/

namespace Sys2Proof.Machine

/-- The frame buffer `FRAME[0..3]`: exactly four 1-bit elements, element 0 the first in time (R11, R42). -/
@[ext]
structure Frame where
  b0 : Bool
  b1 : Bool
  b2 : Bool
  b3 : Bool
  deriving DecidableEq, Repr

/-- The output event records of R8. -/
inductive Record where
  /-- A new carrier burst starts. -/
  | burst
  /-- The burst is terminated. -/
  | burstEnd
  /-- `sent(b)`: the frame unit handed the bit `b` to the Bit Timer. -/
  | sent (b : Bool)
  /-- The recognized-frame action fires. -/
  | recog
  deriving DecidableEq, Repr

/-- What the environment delivers in one step, in one of the two encodings of R70. -/
inductive Input where
  /-- One operation as an event word. -/
  | word (w : EventWord)
  /-- The input ports sampled at one rising edge of `sysclk`. -/
  | pins (v : PinVector)
  deriving DecidableEq, Repr

/-- The machine. The counters are numbers whose range `0` to `target - 1` is an invariant (R23 to R25, R102;
notes/assumptions/5.md). -/
@[ext]
structure State where
  /-- `FRAME` (R11). -/
  frame : Frame
  /-- `POS`, the bit-position counter (R12). -/
  pos : BitIndex
  /-- `ACC`, the pulse accumulator (R13). -/
  acc : Byte
  /-- `RCV`, mode flag: receiving (R14). -/
  rcv : Bool
  /-- `SND`, mode flag: sending (R14). -/
  snd : Bool
  /-- `DAT_EN`, the data-line event path is enabled (R15). -/
  datEn : Bool
  /-- `SER_EN`, the serial-byte event path is enabled (R16). -/
  serEn : Bool
  /-- `PER_EN`, the period timing source is enabled (R17). -/
  perEn : Bool
  /-- `CAR_EN`, the carrier-toggle timing source is enabled (R18). -/
  carEn : Bool
  /-- `TX`, the transmit-line output register (R19). -/
  tx : Bool
  /-- `HB`, the heartbeat status indicator (R20). -/
  hb : Bool
  /-- `PROG`, the frame-progress status indicator (R21). -/
  prog : Bool
  /-- `RECOG_N`, the recognized-frame output, active low (R22). -/
  recogN : Bool
  /-- `PRE_CNT`, the prescaler counter (R23). -/
  preCnt : Nat
  /-- `PER_CNT`, the period counter (R24). -/
  perCnt : Nat
  /-- `CAR_CNT`, the carrier counter (R25). -/
  carCnt : Nat
  /-- The MODEL's own: what the environment will deliver, first element next. Only `step` reads it
  (DESIGN CHOICE, notes/assumptions/1.md). -/
  input : List Input
  /-- The MODEL's own: every record emitted so far, oldest first. Nothing reads it
  (DESIGN CHOICE, notes/assumptions/3.md). -/
  records : List Record
  deriving DecidableEq, Repr

/-- Faults: none. The unit raises no exception and every operation is total (60_exceptions.md R115), so the type has no
constructor. -/
inductive Fault where
  deriving DecidableEq, Repr

/-- Refusals, all of them safe: what is refused is not a run of the hardware. -/
inductive Refusal where
  /-- An instruction without a meaning yet. Raised by no arm of `exec`. Safe. -/
  | notModelled (mnemonic : String)
  /-- Raised by `step` on an event word with `op` in 0x9 to 0xF (R63). Safe. -/
  | reservedOp (w : EventWord)
  /-- Raised by `step` on an event word with a non-zero `arg` on an operation without operand (R64). Safe. -/
  | reservedArg (w : EventWord)
  deriving DecidableEq, Repr

/-- The state after reset (R38). Nothing has been delivered and no record emitted. -/
def State.reset : State :=
  { frame := ⟨false, false, false, false⟩
    pos := 0
    acc := 0
    rcv := false
    snd := false
    datEn := true
    serEn := true
    perEn := false
    carEn := false
    tx := false
    hb := false
    prog := false
    recogN := true
    preCnt := 0
    perCnt := 0
    carCnt := 0
    input := []
    records := [] }

end Sys2Proof.Machine
end

