-- ==== Sys2Proof/Machine/Operands.lean ====
section
/-! DEFINITION. The operands of the operations: the two indexed stores, the frame buffer and the start code
(20_memory.md R40, R41), the immediates built into the unit (30_encoding.md R61), and the fields of the pin
vector (R56). -/

namespace Sys2Proof.Machine

/-- `FRAME[i]`, or an element of any four-element sequence (R7). -/
def Frame.get (f : Frame) : BitIndex → Bool
  | 0 => f.b0
  | 1 => f.b1
  | 2 => f.b2
  | 3 => f.b3

/-- `FRAME[i] <- b` (R41). -/
def Frame.set (f : Frame) (i : BitIndex) (b : Bool) : Frame :=
  match i with
  | 0 => { f with b0 := b }
  | 1 => { f with b1 := b }
  | 2 => { f with b2 := b }
  | 3 => { f with b3 := b }

/-- `START = {1,1,1,0}`, element 0 first (R26). -/
def startCode : Frame := ⟨true, true, true, false⟩

/-- `CMD_BYTE`, the letter `'a'` as a byte (R6, R60; its number: notes/assumptions/8.md). -/
def cmdByte : Byte := 0x61

/-- `rst`, `IN[12]` (R56). -/
def pinRst (v : PinVector) : Bool := v.getLsbD 12

/-- `clk_evt`, `IN[11]` (R56). -/
def pinClk (v : PinVector) : Bool := v.getLsbD 11

/-- `dat_evt`, `IN[10]` (R56). -/
def pinDat (v : PinVector) : Bool := v.getLsbD 10

/-- `btn_evt`, `IN[9]` (R56). -/
def pinBtn (v : PinVector) : Bool := v.getLsbD 9

/-- `ser_stb`, `IN[8]` (R56). -/
def pinSerStb (v : PinVector) : Bool := v.getLsbD 8

/-- `ser_byte`, `IN[7:0]` (R56). -/
def pinSerByte (v : PinVector) : Byte := v.extractLsb' 0 8

end Sys2Proof.Machine
end

