-- ==== Sys2Proof/Machine/Flags.lean ====
section
/-! DEFINITION. The tests and the arithmetic of the unit: mode, bit resolution, frame equality, the saturating
increment (40_frame_events.md R83) and the counters of the Bit Timer (41_bit_timer.md R102). -/

namespace Sys2Proof.Machine

/-- `sat_inc8` (00_scope.md R7). -/
def satInc8 (v : Byte) : Byte := if v = 255 then v else v + 1

/-- The bit a receive resolves: 1 iff the accumulator is not zero (R76, R83). -/
def resolveBit (acc : Byte) : Bool := acc != 0

/-- Frame equality, the comparison of exactly four elements pairwise (20_memory.md R54). -/
def Frame.equals (f g : Frame) : Bool := f.b0 == g.b0 && f.b1 == g.b1 && f.b2 == g.b2 && f.b3 == g.b3

/-- Neither receiving nor sending (R14). -/
def State.isIdle (s : State) : Bool := !s.rcv && !s.snd

/-- A counter that counts modulo `target` is at its last value, so that its next count is a match (R102). -/
def atMatch (target : ℕ+) (n : Nat) : Bool := n == (target : Nat) - 1

/-- One count of a counter that counts modulo `target`: the wrap to 0 is the match (R95, R102). -/
def countUp (target : ℕ+) (n : Nat) : Nat := if atMatch target n then 0 else n + 1

/-- The carrier source matches in this cycle: `cm` of R95. -/
def carrierMatch (p : TimerParams) (s : State) : Bool := s.carEn && atMatch p.carrierTarget s.carCnt

/-- The prescaler passes a count on to the period counter in this cycle (R95). -/
def prescaledCount (p : TimerParams) (s : State) : Bool := s.perEn && atMatch p.prescale s.preCnt

/-- The period source matches in this cycle: `pm` of R95. -/
def periodMatch (p : TimerParams) (s : State) : Bool := prescaledCount p s && atMatch p.periodTarget s.perCnt

end Sys2Proof.Machine
end

