-- ==== Sys2Proof/Machine/Ops.lean ====
section
/-! DEFINITION. The operations shared by the meanings: emitting a record, and the three internal procedures `Arm()`,
`SendBit(b)` and `SendRequest()` (00_scope.md R7). The unit has no memory (R40) and takes no exception (R115, R124):
there is no memory access, no entry and no return to define. -/

namespace Sys2Proof.Machine

/-- `emit e` (R7, R8): the record is appended to those emitted so far. -/
def emit (e : Record) (s : State) : State := { s with records := s.records ++ [e] }

/-- `Arm()` (41_bit_timer.md R90), statement by statement. -/
def arm (s : State) : State :=
  let s := if s.perEn then s else emit .burst { s with preCnt := 0, perCnt := 0 }
  let s := if s.carEn then s else { s with carCnt := 0 }
  { s with perEn := true, carEn := true }

/-- `SendBit(b)` (R92): the bit is reported and gates nothing. -/
def sendBit (b : Bool) (s : State) : State := arm (emit (.sent b) s)

/-- `SendRequest()` (40_frame_events.md R80): accepted in Idle only. -/
def sendRequest (s : State) : State :=
  if s.isIdle then { s with snd := true, serEn := false, datEn := false, pos := 0 } else s

end Sys2Proof.Machine
end

