-- ==== Sys2Proof/Machine/BitTimer.lean ====
section
/-! DEFINITION. The Bit Timer: `PMATCH`, `CMATCH`, `TICK` (41_bit_timer.md). -/

namespace Sys2Proof.Machine

/-- `PMATCH` (R93): the sole place, besides reset, where a burst ends. -/
def pmatch (s : State) : State :=
  if s.perEn then emit .burstEnd { s with perEn := false, carEn := false, tx := false } else s

/-- `CMATCH` (R94). -/
def cmatch (s : State) : State := if s.carEn then { s with tx := !s.tx } else s

/-- The counting of R95: an enabled source counts, a disabled one holds. -/
def count (p : TimerParams) (s : State) : State :=
  { s with
    carCnt := if s.carEn then countUp p.carrierTarget s.carCnt else s.carCnt
    preCnt := if s.perEn then countUp p.prescale s.preCnt else s.preCnt
    perCnt := if prescaledCount p s then countUp p.periodTarget s.perCnt else s.perCnt }

/-- `TICK` with the timer constants `p` (R95): count, then the matches found before counting, `CMATCH` first. -/
def tick (p : TimerParams) (s : State) : State :=
  let cm := carrierMatch p s
  let pm := periodMatch p s
  let s := count p s
  let s := if cm then cmatch s else s
  if pm then pmatch s else s

/-- The meaning of `PMATCH`. -/
def execPmatch (s : State) : Host.Outcome State Fault Refusal := .next (pmatch s)

/-- The meaning of `CMATCH`. -/
def execCmatch (s : State) : Host.Outcome State Fault Refusal := .next (cmatch s)

/-- The meaning of `TICK`, with the constants the machine was built with. -/
def execTick (s : State) : Host.Outcome State Fault Refusal := .next (tick Config.timer s)

end Sys2Proof.Machine
end

