-- ==== Sys2Proof/Machine/FrameEvents.lean ====
section
/-! DEFINITION. The Frame Assembler/Disassembler: `CLK`, `DAT`, `BTN`, `SER` (40_frame_events.md). -/

namespace Sys2Proof.Machine

/-- Step 3 of `CLK` (R76): resolve and store one received bit; after the fourth, return to Idle and compare (R77). -/
def receiveBit (s : State) : State :=
  let s := { s with frame := s.frame.set s.pos (resolveBit s.acc), acc := 0, prog := !s.prog }
  if s.pos = 3 then
    let s := { s with pos := 0, rcv := false }
    if s.frame.equals startCode then emit .recog { s with recogN := false } else s
  else { s with pos := s.pos + 1 }

/-- Step 4 of `CLK` (R76): hand one bit of the start code to the Bit Timer; after the fourth, return to Idle and open
the data path again, the serial path staying closed (R78). -/
def sendNextBit (s : State) : State :=
  let s := sendBit (startCode.get s.pos) s
  if s.pos = 3 then { s with pos := 0, snd := false, datEn := true }
  else { s with pos := s.pos + 1 }

/-- `CLK` (R76). -/
def clk (s : State) : State :=
  let s := arm { s with hb := !s.hb }
  if s.rcv then receiveBit s else if s.snd then sendNextBit s else s

/-- `DAT` (R79). Its one guard is `DAT_EN`. -/
def dat (s : State) : State :=
  if s.datEn then
    let s := if s.isIdle then { s with pos := 0 } else s
    { s with rcv := true, acc := satInc8 s.acc }
  else s

/-- `BTN` (R81). -/
def btn (s : State) : State := sendRequest s

/-- `SER b` (R82). -/
def ser (b : Byte) (s : State) : State := if s.serEn && b == cmdByte then sendRequest s else s

/-- The meaning of `CLK`. -/
def execClk (s : State) : Host.Outcome State Fault Refusal := .next (clk s)

/-- The meaning of `DAT`. -/
def execDat (s : State) : Host.Outcome State Fault Refusal := .next (dat s)

/-- The meaning of `BTN`. -/
def execBtn (s : State) : Host.Outcome State Fault Refusal := .next (btn s)

/-- The meaning of `SER b`. -/
def execSer (b : Byte) (s : State) : Host.Outcome State Fault Refusal := .next (ser b s)

end Sys2Proof.Machine
end

