-- ==== Sys2Proof/Machine/System.lean ====
section
/-! DEFINITION. The system operations `RST` and `NOP` (42_system_and_cycle.md). -/

namespace Sys2Proof.Machine

/-- `RST` (R105): every item of state is written. The undelivered inputs and the records are not items of state
(R28, R8) and stay; `RST` emits none. -/
def rst (s : State) : State :=
  { frame := ⟨false, false, false, false⟩
    pos := 0
    acc := 0
    rcv := false
    snd := false
    datEn := true
    serEn := true
    perEn := false
    carEn := false
    tx := false
    hb := false
    prog := false
    recogN := true
    preCnt := 0
    perCnt := 0
    carCnt := 0
    input := s.input
    records := s.records }

/-- The meaning of `RST`. -/
def execRst (s : State) : Host.Outcome State Fault Refusal := .next (rst s)

/-- The meaning of `NOP` (R106): no state changes and no record is emitted. -/
def execNop (s : State) : Host.Outcome State Fault Refusal := .next s

end Sys2Proof.Machine
end

