-- ==== Sys2Proof/Machine/Cycle.lean ====
section
/-! DEFINITION. The step of the timed profile (42_system_and_cycle.md R107) and the expansion of a pin vector into
operations (30_encoding.md R57). -/

namespace Sys2Proof.Machine

/-- The operations a pin vector stands for, in the order of R57 and R123. -/
def expandPins (v : PinVector) : List Instr :=
  if pinRst v then [.rst]
  else
    [.tick]
      ++ (if pinClk v then [.clk] else [])
      ++ (if pinDat v then [.dat] else [])
      ++ (if pinBtn v then [.btn] else [])
      ++ (if pinSerStb v then [.ser (pinSerByte v)] else [])

/-- `CYCLE(IN)` with the timer constants `p` (R107). -/
def cycle (p : TimerParams) (v : PinVector) (s : State) : State :=
  if pinRst v then rst s
  else
    let s := tick p s
    let s := if pinClk v then clk s else s
    let s := if pinDat v then dat s else s
    let s := if pinBtn v then btn s else s
    if pinSerStb v then ser (pinSerByte v) s else s

end Sys2Proof.Machine
end

