-- ==== Sys2Proof/Machine/Dispatch.lean ====
section
/-! DEFINITION. The meaning of every operation, one arm per row of the opcode table. -/

namespace Sys2Proof.Machine

/-- What the operation `i` does to the state `s`. -/
def exec (i : Instr) (s : State) : Host.Outcome State Fault Refusal :=
  match i with
  | .nop => Sys2Proof.Machine.execNop s
  | .clk => Sys2Proof.Machine.execClk s
  | .dat => Sys2Proof.Machine.execDat s
  | .btn => Sys2Proof.Machine.execBtn s
  | .ser b => Sys2Proof.Machine.execSer b s
  | .pmatch => Sys2Proof.Machine.execPmatch s
  | .cmatch => Sys2Proof.Machine.execCmatch s
  | .rst => Sys2Proof.Machine.execRst s
  | .tick => Sys2Proof.Machine.execTick s

end Sys2Proof.Machine
end

