-- ==== Sys2Proof/Machine/Step.lean ====
section
/-! DEFINITION. One step of the machine: the environment delivers the next input and the unit handles it completely
(20_memory.md R46, R50). -/

namespace Sys2Proof.Machine

/-- The refusal a word that encodes no operation is met with (R63, R64, R115). -/
def refusalOf : DecodeError → Refusal
  | .reservedOp w => .reservedOp w
  | .reservedArg w => .reservedArg w

/-- The next input is consumed and handled: an event word is decoded and run, a pin vector is one `CYCLE` with the
machine's own constants. With no input left nothing is delivered and nothing changes
(DESIGN CHOICE, notes/assumptions/2.md). -/
def step (s : State) : Host.Outcome State Fault Refusal :=
  match s.input with
  | [] => .next s
  | .word w :: rest =>
    match decode w with
    | .ok i => exec i { s with input := rest }
    | .error e => .refused (refusalOf e)
  | .pins v :: rest => .next (cycle Config.timer v { s with input := rest })

/-- The state with the operation of a number of the opcode table as the next input (notes/assumptions/1.md). -/
def State.withFetchWord (s : State) (nbits w : Nat) : State :=
  { s with input := .word (tableWord nbits w) :: s.input }

end Sys2Proof.Machine
end

