-- ==== Sys2Proof/Machine/Ports.lean ====
section
/-! DEFINITION. What is seen of the state from outside: the output ports (10_state.md R29, R30) as the output pin vector
(30_encoding.md R58), and the snapshot word of traces and test vectors (10_state.md R36). -/

namespace Sys2Proof.Machine

/-- `OUT[5:0] = {dat_en, ser_en, tx, hb, prog, recog_n}` (R58): every output port is the image of its state bit (R30). -/
def State.out (s : State) : OutVector :=
  BitVec.ofBool s.datEn ++ BitVec.ofBool s.serEn ++ BitVec.ofBool s.tx ++ BitVec.ofBool s.hb
    ++ BitVec.ofBool s.prog ++ BitVec.ofBool s.recogN

/-- A frame as four bits, element `i` at bit `i` (R42). -/
def Frame.toBits (f : Frame) : BitVec 4 :=
  BitVec.ofBool f.b3 ++ BitVec.ofBool f.b2 ++ BitVec.ofBool f.b1 ++ BitVec.ofBool f.b0

/-- The frame packed in four bits (R42). -/
def Frame.ofBits (w : BitVec 4) : Frame :=
  ⟨w.getLsbD 0, w.getLsbD 1, w.getLsbD 2, w.getLsbD 3⟩

/-- `SNAP` (R36): the thirteen untimed items in one word. -/
def State.snap (s : State) : SnapWord :=
  s.acc ++ s.frame.toBits ++ BitVec.ofFin (w := 2) s.pos ++ BitVec.ofBool s.snd ++ BitVec.ofBool s.rcv
    ++ BitVec.ofBool s.datEn ++ BitVec.ofBool s.serEn ++ BitVec.ofBool s.perEn ++ BitVec.ofBool s.carEn
    ++ BitVec.ofBool s.tx ++ BitVec.ofBool s.hb ++ BitVec.ofBool s.prog ++ BitVec.ofBool s.recogN

/-- The state that a snapshot word and the three counters beside it stand for (R36), with nothing delivered or emitted. -/
def State.ofSnap (w : SnapWord) (pre per car : Nat) : State :=
  { frame := Frame.ofBits (w.extractLsb' 12 4)
    pos := (w.extractLsb' 10 2).toFin
    acc := w.extractLsb' 16 8
    rcv := w.getLsbD 8
    snd := w.getLsbD 9
    datEn := w.getLsbD 7
    serEn := w.getLsbD 6
    perEn := w.getLsbD 5
    carEn := w.getLsbD 4
    tx := w.getLsbD 3
    hb := w.getLsbD 2
    prog := w.getLsbD 1
    recogN := w.getLsbD 0
    preCnt := pre
    perCnt := per
    carCnt := car
    input := []
    records := [] }

end Sys2Proof.Machine
end

