-- ==== Sys2Proof/Machine/TraceText.lean ====
section
/-! DEFINITION. The written form of traces (30_encoding.md R67): one operation or one pin vector per line, and the state
and the records as they are written after it. Lines are lists of characters. -/

namespace Sys2Proof

namespace Machine

/-- A hexadecimal digit, capitals for ten to fifteen. -/
def hexDigit (n : Nat) : Char := if n < 10 then Char.ofNat (48 + n) else Char.ofNat (55 + n)

/-- The lowest `k` hexadecimal digits of a number, most significant first. -/
def hexDigits : Nat → Nat → List Char
  | 0, _ => []
  | k + 1, n => hexDigits k (n / 16) ++ [hexDigit (n % 16)]

/-- The value of a hexadecimal digit, in capitals or not. -/
def hexValue (c : Char) : Option Nat :=
  if 48 ≤ c.toNat ∧ c.toNat ≤ 57 then some (c.toNat - 48)
  else if 65 ≤ c.toNat ∧ c.toNat ≤ 70 then some (c.toNat - 55)
  else if 97 ≤ c.toNat ∧ c.toNat ≤ 102 then some (c.toNat - 87)
  else none

/-- The number a list of hexadecimal digits writes, on top of what the digits before them write. -/
def hexNumber : Nat → List Char → Option Nat
  | n, [] => some n
  | n, c :: cs =>
    match hexValue c with
    | some d => hexNumber (16 * n + d) cs
    | none => none

end Machine

/-- The mnemonic of R62, in capitals. -/
def Instr.mnemonic : Instr → List Char
  | .nop => ['N', 'O', 'P']
  | .clk => ['C', 'L', 'K']
  | .dat => ['D', 'A', 'T']
  | .btn => ['B', 'T', 'N']
  | .ser _ => ['S', 'E', 'R']
  | .pmatch => ['P', 'M', 'A', 'T', 'C', 'H']
  | .cmatch => ['C', 'M', 'A', 'T', 'C', 'H']
  | .rst => ['R', 'S', 'T']
  | .tick => ['T', 'I', 'C', 'K']

namespace Machine

/-- One operation as a line of a trace: the mnemonic, and for `SER` one space and the operand as `0x` and two digits. -/
def operationLine (i : Instr) : List Char :=
  match i with
  | .ser b => i.mnemonic ++ [' ', '0', 'x'] ++ hexDigits 2 b.toNat
  | .nop | .clk | .dat | .btn | .pmatch | .cmatch | .rst | .tick => i.mnemonic

/-- One pin vector as a line of a timed trace: `IN=0x` and four digits. -/
def pinLine (v : PinVector) : List Char := ['I', 'N', '=', '0', 'x'] ++ hexDigits 4 v.toNat

/-- A line without its comment, which runs from `;` to the end, and without the spaces before it. A quoted `;` starts a comment
too, so that a line with the operand `';'` names no operation: R67 does not say which wins (DESIGN CHOICE,
notes/assumptions/16.md). -/
def withoutComment (l : List Char) : List Char :=
  ((l.takeWhile (fun c => c != ';')).reverse.dropWhile (fun c => c == ' ')).reverse

/-- The operand of `SER`: `0x` and two hexadecimal digits, or a quoted character. -/
def readByte : List Char → Option Byte
  | ['0', 'x', a, b] => (hexNumber 0 [a, b]).map (BitVec.ofNat 8)
  | [q, c, r] => if q.toNat = 39 ∧ r.toNat = 39 ∧ c.toNat < 128 then some (BitVec.ofNat 8 c.toNat) else none
  | _ => none

/-- The operation a line of a trace names, or none. -/
def readOperation (l : List Char) : Option Instr :=
  match withoutComment l with
  | ['N', 'O', 'P'] => some .nop
  | ['C', 'L', 'K'] => some .clk
  | ['D', 'A', 'T'] => some .dat
  | ['B', 'T', 'N'] => some .btn
  | ['P', 'M', 'A', 'T', 'C', 'H'] => some .pmatch
  | ['C', 'M', 'A', 'T', 'C', 'H'] => some .cmatch
  | ['R', 'S', 'T'] => some .rst
  | ['T', 'I', 'C', 'K'] => some .tick
  | 'S' :: 'E' :: 'R' :: ' ' :: operand => (readByte operand).map Instr.ser
  | _ => none

/-- The pin vector a line of a timed trace names, or none; more than 13 bits name none. -/
def readPins (l : List Char) : Option PinVector :=
  match withoutComment l with
  | ['I', 'N', '=', '0', 'x', a, b, c, d] =>
    match hexNumber 0 [a, b, c, d] with
    | some n => if n < 8192 then some (BitVec.ofNat 13 n) else none
    | none => none
  | _ => none

/-- The state as an untimed trace writes it: the six digits of `SNAP`. -/
def State.text (s : State) : List Char := hexDigits 6 s.snap.toNat

/-- The counters as a timed trace writes them beside `SNAP`: `cnt=(p,q,r)`, in decimal. -/
def State.countersText (s : State) : List Char :=
  ['c', 'n', 't', '=', '('] ++ Nat.toDigits 10 s.preCnt ++ [','] ++ Nat.toDigits 10 s.perCnt ++ [',']
    ++ Nat.toDigits 10 s.carCnt ++ [')']

/-- A record as a trace writes it (R8). -/
def Record.text : Record → List Char
  | .burst => ['b', 'u', 'r', 's', 't']
  | .burstEnd => ['b', 'u', 'r', 's', 't', '_', 'e', 'n', 'd']
  | .sent b => ['s', 'e', 'n', 't', '(', if b then '1' else '0', ')']
  | .recog => ['r', 'e', 'c', 'o', 'g']

end Machine

end Sys2Proof
end

