-- ==== Sys2Proof/Machine/Trace.lean ====
section
/-! DEFINITION. Runs: sequences of operations and of cycles (20_memory.md R50), the projection of a timed run onto an
untimed one (42_system_and_cycle.md R110), which traces are runs of a profile (00_scope.md R9, 30_encoding.md R65), and the
pseudo-events of traces (30_encoding.md R68). -/

namespace Sys2Proof.Machine

/-- The operations one after another, each on the state the one before left (R50). -/
def runOps : List Instr → State → Host.Outcome State Fault Refusal
  | [], s => .next s
  | i :: is, s =>
    match exec i s with
    | .next t => runOps is t
    | .fault r => .fault r
    | .refused r => .refused r

/-- One `CYCLE` after another with the timer constants `p` (R107). -/
def runCycles (p : TimerParams) : List PinVector → State → State
  | [], s => s
  | v :: vs, s => runCycles p vs (cycle p v s)

/-- The timer events a `TICK` performs, in their order, or `NOP` if it performs none (R110). -/
def timerEvents (p : TimerParams) (s : State) : List Instr :=
  match carrierMatch p s, periodMatch p s with
  | false, false => [.nop]
  | true, false => [.cmatch]
  | false, true => [.pmatch]
  | true, true => [.cmatch, .pmatch]

/-- One cycle as operations of the untimed profile (R110). -/
def projectCycle (p : TimerParams) (v : PinVector) (s : State) : List Instr :=
  if pinRst v then [.rst]
  else
    timerEvents p s
      ++ (if pinClk v then [.clk] else [])
      ++ (if pinDat v then [.dat] else [])
      ++ (if pinBtn v then [.btn] else [])
      ++ (if pinSerStb v then [.ser (pinSerByte v)] else [])

/-- A timed run as operations of the untimed profile (R110). -/
def projectRun (p : TimerParams) : List PinVector → State → List Instr
  | [], _ => []
  | v :: vs, s => projectCycle p v s ++ projectRun p vs (cycle p v s)

/-- The state without its counters, which the untimed profile does not have (R9, R110). -/
def State.dropCounters (s : State) : State := { s with preCnt := 0, perCnt := 0, carCnt := 0 }

/-- The operation an event word names; a reserved word and a pin vector name none (R69, R70). -/
def Input.operation : Input → Option Instr
  | .word w =>
    match decode w with
    | .ok i => some i
    | .error _ => none
  | .pins _ => none

/-- The operations the event words of a trace name, if every input of it is one that names an operation. -/
def operations : List Input → Option (List Instr)
  | [] => some []
  | x :: xs =>
    match x.operation, operations xs with
    | some i, some is => some (i :: is)
    | _, _ => none

/-- The input is a pin vector, the real input of the timed profile (R70). -/
def Input.isPins : Input → Bool
  | .word _ => false
  | .pins _ => true

/-- The place of an operation in the fixed order of a cycle (R57, R123). What no pin vector expands to has none: `PMATCH` and
`CMATCH` are performed inside `TICK` (R65), and the empty cycle is `TICK` and not `NOP` (R106). -/
def cyclePlace : Instr → Option Nat
  | .tick => some 0
  | .clk => some 1
  | .dat => some 2
  | .btn => some 3
  | .ser _ => some 4
  | .rst => some 5
  | .nop | .pmatch | .cmatch => none

/-- The operations carry on a sequence of cycles whose last operation has the place `last`: `TICK` and `RST` begin a cycle, an
event follows an operation of a lower place, and nothing follows `RST` within its cycle (R57). -/
def continuesCycles : Nat → List Instr → Bool
  | _, [] => true
  | last, i :: is =>
    match cyclePlace i with
    | none => false
    | some place => (place == 0 || place == 5 || last < place) && continuesCycles place is

/-- The operations are those of cycles, one after another (R9, R57). -/
def wholeCycles (is : List Instr) : Bool := continuesCycles 5 is

/-- The trace is one that the profile admits (R9, R65). An untimed trace is event words other than `TICK`. The timed profile's
only step is `CYCLE(IN)`, so a timed trace is pin vectors alone, or event words alone that are the operations of cycles. -/
def admits (pr : Profile) (xs : List Input) : Bool :=
  match pr, operations xs with
  | .untimed, some is => is.all fun i => i.allowedIn .untimed
  | .untimed, none => false
  | .timed, some is => wholeCycles is
  | .timed, none => xs.all Input.isPins

/-- `BIT1` and `BIT0` (R68): one bit period with or without a pulse, then the clock edge that resolves it. -/
def bitPeriod (b : Bool) : List Instr := if b then [.dat, .clk] else [.clk]

/-- `RXFRAME b0 b1 b2 b3` (R68): a 4-bit data pattern, element 0 first. -/
def rxFrame (f : Frame) : List Instr := bitPeriod f.b0 ++ bitPeriod f.b1 ++ bitPeriod f.b2 ++ bitPeriod f.b3

/-- `SENDREQ` (R68). -/
def sendReq : List Instr := [.btn]

/-- `SER 'a'` (R68). -/
def serCommand : List Instr := [.ser cmdByte]

/-- `BURSTEND` (R68). -/
def burstEnd : List Instr := [.pmatch]

/-- `WAIT n` as event words (R68). -/
def waitTicks (n : Nat) : List Instr := List.replicate n .tick

/-- `WAIT n` as pin vectors (R68). -/
def waitCycles (n : Nat) : List PinVector := List.replicate n 0

/-- `IDLE n` (R68). -/
def idle (n : Nat) : List Instr := List.replicate n .nop

end Sys2Proof.Machine
end

