-- ==== Sys2Proof/Safety.lean ====
section
/-! DEFINITION. The terms claims are stated in: the mode, the invariants of the reachable state (10_state.md R31 to R39,
R71, R72), the assumption on the environment of the untimed profile (41_bit_timer.md R100), the running burst
(R97, R98) and the part of the frame buffer that is still to be read (10_state.md R11). -/

namespace Sys2Proof

open Machine

/-- The protocol mode (R14). -/
inductive Mode where
  | idle
  | receiving
  | sending
  deriving DecidableEq, Repr

namespace Machine

/-- The state is in the mode (R14). The combination `RCV = 1, SND = 1` is in no mode (R32). -/
def State.inMode (s : State) : Mode → Prop
  | .idle => s.rcv = false ∧ s.snd = false
  | .receiving => s.rcv = true ∧ s.snd = false
  | .sending => s.rcv = false ∧ s.snd = true

/-- What holds in every state a run reaches, with the timer constants `p`. -/
structure State.Inv (p : TimerParams) (s : State) : Prop where
  /-- R31: both timing sources are enabled together. -/
  sources_together : s.perEn = s.carEn
  /-- R32: never receiving and sending. -/
  modes_exclusive : ¬(s.rcv = true ∧ s.snd = true)
  /-- R33: in Idle the bit position is 0. -/
  idle_pos : s.inMode .idle → s.pos = 0
  /-- R34: pulses are counted in Receiving only. -/
  pulses_receiving : s.acc ≠ 0 → s.rcv = true
  /-- R35: the data path is open exactly when no send runs. -/
  data_path : s.datEn = !s.snd
  /-- R37: the line rests at 0 outside a burst. -/
  line_rests : s.carEn = false → s.tx = false
  /-- R39: a send has closed the serial path. -/
  serial_path : s.snd = true → s.serEn = false
  /-- R71: `prog` shows the low bit of the position of a receive. -/
  progress : s.prog = (s.rcv && s.pos.val % 2 == 1)
  /-- R72: the data edge that started a receive is still counted at position 0. -/
  first_pulse : s.rcv = true → s.pos = 0 → s.acc ≠ 0
  /-- R72, R85: from position 1 on, element 0 is 1. -/
  first_element : s.rcv = true → s.pos ≠ 0 → s.frame.b0 = true
  /-- R23, R102: the range of `PRE_CNT`. -/
  pre_range : s.preCnt < p.prescale
  /-- R24, R102: the range of `PER_CNT`. -/
  per_range : s.perCnt < p.periodTarget
  /-- R25, R102: the range of `CAR_CNT`. -/
  car_range : s.carCnt < p.carrierTarget

/-- The bits handed to the Bit Timer, in order (R92). -/
def sentBits (rs : List Record) : List Bool :=
  rs.filterMap fun
    | .sent b => some b
    | _ => none

/-- The state after the first `n` operations of an endless sequence. -/
def stateAt (es : Nat → Instr) (s : State) : Nat → State
  | 0 => s
  | n + 1 =>
    match exec (es n) (stateAt es s n) with
    | .next t => t
    | .fault _ => stateAt es s n
    | .refused _ => stateAt es s n

/-- R100, the fairness assumption of the untimed profile: whenever the period source is enabled, a `PMATCH` is
eventually delivered. -/
def fairRun (es : Nat → Instr) (s : State) : Prop :=
  ∀ n, (stateAt es s n).perEn = true → ∃ m, n ≤ m ∧ es m = .pmatch

/-- The other half of R100: along the operations no `PMATCH` and no `CMATCH` is delivered while its source is disabled. -/
def noStrayMatch : List Instr → State → Prop
  | [], _ => True
  | i :: is, s =>
    (i = .pmatch → s.perEn = true) ∧ (i = .cmatch → s.carEn = true) ∧ ∀ t, exec i s = .next t → noStrayMatch is t

/-- The timer `n` cycles after the one that armed it (R97, R98): both sources enabled, the counters and the line as `n` cycles of
counting from 0 leave them. -/
structure State.BurstAt (p : TimerParams) (n : Nat) (s : State) : Prop where
  perEn : s.perEn = true
  carEn : s.carEn = true
  preCnt : s.preCnt = n % p.prescale
  perCnt : s.perCnt = n / p.prescale
  carCnt : s.carCnt = n % p.carrierTarget
  tx : s.tx = decide (n / p.carrierTarget % 2 = 1)

/-- The timer of a run whose line is toggled by its own counter: off with the line at rest, or within a burst of `L` cycles at one
of its cycles (R97, R98, R99). -/
def State.BurstOnTime (p : TimerParams) (s : State) : Prop :=
  (s.perEn = false ∧ s.carEn = false ∧ s.tx = false) ∨ ∃ n, n < p.burstCycles ∧ s.BurstAt p n

/-- Two states that differ at most in elements of `FRAME` a later comparison cannot read: outside Receiving in any, in
Receiving in those from `POS` up, which are written before they are compared (R11, R41). -/
structure AgreeOnReadFrame (s u : State) : Prop where
  others : { u with frame := s.frame } = s
  written : s.rcv = true → ∀ j : BitIndex, j < s.pos → u.frame.get j = s.frame.get j

end Machine

end Sys2Proof
end

