-- ==== Sys2Proof/Certificates/Slice0/Obligations.lean ====
section
/-! DEFINITION. The statements about the frame unit, each from a rule of the spec. -/

open Sys2Proof Sys2Proof.Machine

/-! ## Encodings -/

/-- One word of each operation, written out from `op` and `arg` of R62. -/
def Obligations.WordsDecodeToTheirOperations : Prop :=
  decode 0b000000000000 = .ok .nop ∧ decode 0b000100000000 = .ok .clk ∧ decode 0b001000000000 = .ok .dat ∧
  decode 0b001100000000 = .ok .btn ∧ decode 0b010001100001 = .ok (.ser 0x61) ∧
  decode 0b010111111111 = .error (.reservedArg 0x5FF) ∧ decode 0b010100000000 = .ok .pmatch ∧
  decode 0b011000000000 = .ok .cmatch ∧ decode 0b011100000000 = .ok .rst ∧ decode 0b100000000000 = .ok .tick ∧
  decode 0b111100000000 = .error (.reservedOp 0xF00)

/-- R62: a word is the operation iff `w and mask = match`, and the operand of `SER` is `arg`. -/
def Obligations.DecodeFollowsTheOpcodeTable : Prop :=
  ∀ w : EventWord,
    (decode w = .ok .nop ↔ w &&& 0xFFF = 0x000) ∧
    (decode w = .ok .clk ↔ w &&& 0xFFF = 0x100) ∧
    (decode w = .ok .dat ↔ w &&& 0xFFF = 0x200) ∧
    (decode w = .ok .btn ↔ w &&& 0xFFF = 0x300) ∧
    (∀ b, decode w = .ok (.ser b) ↔ w &&& 0xF00 = 0x400 ∧ b = w.extractLsb' 0 8) ∧
    (decode w = .ok .pmatch ↔ w &&& 0xFFF = 0x500) ∧
    (decode w = .ok .cmatch ↔ w &&& 0xFFF = 0x600) ∧
    (decode w = .ok .rst ↔ w &&& 0xFFF = 0x700) ∧
    (decode w = .ok .tick ↔ w &&& 0xFFF = 0x800)

/-- Every operation has exactly one event word, and decode and encode agree on it (R64, R70). -/
def Obligations.EachOperationHasOneWord : Prop :=
  ∀ (i : Instr) (w : EventWord), decode w = .ok i ↔ w = encode i

/-- A step refuses a word with `op` in 0x9 to 0xF under the name `reservedOp`, whatever its `arg`. That the name is this one also
where `arg` is not 0 is the model's reading of R63, R64 and R69 (DEDUCED, notes/assumptions/9.md). -/
def Obligations.ReservedOpcodesAreRefused : Prop :=
  ∀ (s : State) (w : EventWord) (rest : List Input), s.input = .word w :: rest → 0x900 ≤ w →
    step s = .refused (.reservedOp w)

/-- R64: a step refuses a non-zero `arg` on an operation without operand; every `arg` is legal for `SER`, and 255 of the
256 have no effect on state; decode then encode is the identity on every legal word. -/
def Obligations.NonzeroArgumentsAreRefused : Prop :=
  (∀ (s : State) (w : EventWord) (rest : List Input), s.input = .word w :: rest → w < 0x900 →
    w.extractLsb' 8 4 ≠ 0x4 → w.extractLsb' 0 8 ≠ (0 : Byte) → step s = .refused (.reservedArg w)) ∧
  (∀ b : Byte, decode ((0x4 : BitVec 4) ++ b) = .ok (.ser b)) ∧
  (∀ (b : Byte) (s : State), b ≠ 0x61 → exec (.ser b) s = .next s) ∧
  (∀ (w : EventWord) (i : Instr), decode w = .ok i → encode i = w)

/-- R63: a word with `op` in 0x9 to 0xF has no next state, under whatever name it is refused, while `NOP` has one. -/
def Obligations.ReservedWordsHaveNoNextState : Prop :=
  ∀ (s : State) (w : EventWord) (rest : List Input), s.input = .word w :: rest →
    (0x9 : BitVec 4) ≤ w.extractLsb' 8 4 → (∃ r, step s = .refused r) ∧ ∀ t, step s ≠ .next t

/-- The decoder accepts exactly the words the two checks of R63 and R64 leave. -/
def Obligations.DecodeAcceptsTheWellFormedWords : Prop :=
  ∀ w : EventWord, (∃ i, decode w = .ok i) ↔ w.wellFormed = true

/-- R67: what a trace writes for an operation or a pin vector is read back as that. -/
def Obligations.TraceLinesReadBack : Prop :=
  (∀ i : Instr, readOperation (operationLine i) = some i) ∧ (∀ v : PinVector, readPins (pinLine v) = some v)

/-! ## The step -/

/-- A step runs the operation its next word encodes on the state without that word; a pin vector is one cycle; with
nothing delivered nothing happens (the model's own input list, notes/assumptions/1.md and 2.md). -/
def Obligations.StepRunsTheDeliveredOperation : Prop :=
  ∀ s : State,
    (s.input = [] → step s = .next s) ∧
    (∀ i rest, s.input = .word (encode i) :: rest → step s = exec i { s with input := rest }) ∧
    (∀ v rest, s.input = .pins v :: rest → step s = .next (cycle Config.timer v { s with input := rest }))

/-- R115: every operation is total; the only refusals are of event words that encode no operation. -/
def Obligations.EveryOperationIsTotal : Prop :=
  (∀ (i : Instr) (s : State), ∃ t, exec i s = .next t) ∧
  (∀ s : State, (∃ t, step s = .next t) ∨
    (∃ w rest, s.input = .word w :: rest ∧ w.wellFormed = false ∧
      (step s = .refused (.reservedOp w) ∨ step s = .refused (.reservedArg w))))

/-- The machine run on a list of event words is the operations one after another, and on a list of pin vectors the
cycles one after another (R50). -/
def Obligations.RunsFollowTheDeliveredSequence : Prop :=
  (∀ (es : List Instr) (s : State),
    Host.Core.run Sys2Proof.core es.length ({ s with input := es.map fun i => .word (encode i) } : State) =
      runOps es { s with input := [] }) ∧
  (∀ (vs : List PinVector) (s : State),
    Host.Core.run Sys2Proof.core vs.length ({ s with input := vs.map .pins } : State) =
      .next (runCycles Config.timer vs { s with input := [] }))

/-- A trace without reserved word runs to its end, and a trace that a profile admits has none. That event words and pin vectors
may be mixed in a run, and which traces `admits` takes, is the model's choice (DEDUCED from R9 and R65,
notes/assumptions/6.md). -/
def Obligations.AdmittedTracesRunToTheEnd : Prop :=
  (∀ (s : State) (inputs : List Input), (∀ x ∈ inputs, x.isPins = true ∨ ∃ i, x.operation = some i) →
    ∃ t : State, Host.Core.run Sys2Proof.core inputs.length ({ s with input := inputs } : State) = .next t ∧ t.input = []) ∧
  (∀ (pr : Profile) (inputs : List Input), admits pr inputs = true →
    ∀ x ∈ inputs, x.isPins = true ∨ ∃ i, x.operation = some i ∧ i.allowedIn pr = true)

/-- The timed traces that the model admits, of which the only step is the cycle: event words exactly if they are the operations of
some pin vectors in order, a trace with a pin vector in it exactly if it is pin vectors alone; and running such words is
running the cycles. Which lists count as timed traces is the model's choice (DEDUCED from R9, R65 and R67,
notes/assumptions/6.md). -/
def Obligations.TimedWordTracesAreCycles : Prop :=
  (∀ inputs : List Input, (∀ x ∈ inputs, x.isPins = false) →
    (admits .timed inputs = true ↔
      ∃ vs : List PinVector, inputs = (vs.flatMap expandPins).map fun i => .word (encode i))) ∧
  (∀ inputs : List Input, (∃ v, .pins v ∈ inputs) →
    (admits .timed inputs = true ↔ ∀ x ∈ inputs, x.isPins = true)) ∧
  (∀ (vs : List PinVector) (s : State),
    Host.Core.run Sys2Proof.core (vs.flatMap expandPins).length
        ({ s with input := (vs.flatMap expandPins).map fun i => .word (encode i) } : State) =
      Host.Core.run Sys2Proof.core vs.length ({ s with input := vs.map .pins } : State))

/-! ## The effect of each operation -/

/-- R106: `NOP` changes no state and emits no record; the empty cycle of the timed profile is `TICK`, which equals `NOP`
exactly when the timer is not armed. -/
def Obligations.NopIsTheEmptyEvent : Prop :=
  decode 0x000 = .ok .nop ∧
  (∀ s : State, exec .nop s = .next s) ∧
  (∀ (p : TimerParams) (s : State), cycle p 0x0000 s = tick p s) ∧
  (∀ (p : TimerParams) (s : State), tick p s = s ↔ s.perEn = false ∧ s.carEn = false)

/-- R76: `CLK`, branch by branch. The receive branch is taken first. Nothing else is written. -/
def Obligations.ClockEdgeEffect : Prop :=
  decode 0x100 = .ok .clk ∧
  ∀ s : State,
    let a := arm { s with hb := !s.hb }
    (s.rcv = false → s.snd = false → exec .clk s = .next a) ∧
    (s.rcv = true → s.pos ≠ 3 → exec .clk s =
      .next { a with frame := s.frame.set s.pos (s.acc != 0), acc := 0, prog := !s.prog, pos := s.pos + 1 }) ∧
    (s.rcv = true → s.pos = 3 → ¬(s.frame.b0 = true ∧ s.frame.b1 = true ∧ s.frame.b2 = true ∧ s.acc = 0) →
      exec .clk s =
        .next { a with frame := s.frame.set 3 (s.acc != 0), acc := 0, prog := !s.prog, pos := 0, rcv := false }) ∧
    (s.rcv = true → s.pos = 3 → s.frame.b0 = true → s.frame.b1 = true → s.frame.b2 = true → s.acc = 0 →
      exec .clk s =
        .next { a with frame := ⟨true, true, true, false⟩, acc := 0, prog := !s.prog, pos := 0, rcv := false,
                       recogN := false, records := a.records ++ [.recog] }) ∧
    (s.rcv = false → s.snd = true → s.pos ≠ 3 → exec .clk s =
      .next { a with pos := s.pos + 1, records := a.records ++ [.sent true] }) ∧
    (s.rcv = false → s.snd = true → s.pos = 3 → exec .clk s =
      .next { a with pos := 0, snd := false, datEn := true, records := a.records ++ [.sent false] })

/-- R79: `DAT` tests `DAT_EN` only; it marks the receive and counts the pulse, saturating at 255. -/
def Obligations.DataEdgeEffect : Prop :=
  decode 0x200 = .ok .dat ∧
  ∀ s : State,
    (s.datEn = false → exec .dat s = .next s) ∧
    (s.datEn = true → exec .dat s =
      .next { s with rcv := true, acc := if s.acc = 255 then 255 else s.acc + 1,
                     pos := if s.rcv = false ∧ s.snd = false then 0 else s.pos })

/-- R80, R81, R82: a button press, or the byte 0x61 on an enabled serial path, starts a send from Idle; outside Idle, for
every other byte and on a disabled path there is no effect at all. -/
def Obligations.SendRequestEffect : Prop :=
  decode 0x300 = .ok .btn ∧ (∀ b : Byte, decode ((0x4 : BitVec 4) ++ b) = .ok (.ser b)) ∧
  ∀ s : State,
    (s.rcv = false → s.snd = false →
      exec .btn s = .next { s with snd := true, serEn := false, datEn := false, pos := 0 }) ∧
    (s.rcv = true ∨ s.snd = true → exec .btn s = .next s) ∧
    (s.serEn = true → s.rcv = false → s.snd = false →
      exec (.ser 0x61) s = .next { s with snd := true, serEn := false, datEn := false, pos := 0 }) ∧
    (∀ b, s.serEn = false ∨ b ≠ 0x61 ∨ s.rcv = true ∨ s.snd = true → exec (.ser b) s = .next s)

/-- R90: `Arm()` enables both sources and clears the counters of a source that was disabled; on an armed timer it
changes nothing. -/
def Obligations.ArmEnablesBothSources : Prop :=
  ∀ s : State,
    arm s = { s with perEn := true, carEn := true,
                     preCnt := if s.perEn = true then s.preCnt else 0,
                     perCnt := if s.perEn = true then s.perCnt else 0,
                     carCnt := if s.carEn = true then s.carCnt else 0,
                     records := s.records ++ if s.perEn = true then [] else [.burst] } ∧
    (s.perEn = true → s.carEn = true → arm s = s)

/-- R92: the bit handed to the Bit Timer is reported and gates nothing. -/
def Obligations.SentBitGatesNothing : Prop :=
  ∀ (b : Bool) (s : State), sendBit b s = arm { s with records := s.records ++ [.sent b] }

/-- R93: `PMATCH` disables both sources and rests the line at 0; on a disabled source it has no effect; apart from `RST`
and the `TICK` that performs it no operation ends a burst. -/
def Obligations.PeriodMatchEffect : Prop :=
  decode 0x500 = .ok .pmatch ∧
  (∀ s : State, s.perEn = true → exec .pmatch s =
    .next { s with perEn := false, carEn := false, tx := false, records := s.records ++ [.burstEnd] }) ∧
  (∀ s : State, s.perEn = false → exec .pmatch s = .next s) ∧
  (∀ (i : Instr) (s t : State), exec i s = .next t →
    (s.perEn = true ∧ t.perEn = false) ∨ (s.carEn = true ∧ t.carEn = false) →
    i = .pmatch ∨ i = .rst ∨ (i = .tick ∧ t.records = s.records ++ [.burstEnd]))

/-- R94: `CMATCH` toggles the line while the carrier source is enabled. -/
def Obligations.CarrierMatchEffect : Prop :=
  decode 0x600 = .ok .cmatch ∧
  ∀ s : State,
    (s.carEn = true → exec .cmatch s = .next { s with tx := !s.tx }) ∧
    (s.carEn = false → exec .cmatch s = .next s)

/-- R95: `TICK` counts the enabled sources modulo their targets and performs the matches found, whatever the timer
constants; the machine's own step uses the constants it was built with. -/
def Obligations.TickEffect : Prop :=
  decode 0x800 = .ok .tick ∧
  (∀ s : State, exec .tick s = .next (tick Config.timer s)) ∧
  ∀ (p : TimerParams) (s : State),
    let cm := s.carEn = true ∧ s.carCnt = (p.carrierTarget : Nat) - 1
    let pre := s.perEn = true ∧ s.preCnt = (p.prescale : Nat) - 1
    let pm := pre ∧ s.perCnt = (p.periodTarget : Nat) - 1
    tick p s =
      { s with carCnt := if cm then 0 else if s.carEn = true then s.carCnt + 1 else s.carCnt
               preCnt := if pre then 0 else if s.perEn = true then s.preCnt + 1 else s.preCnt
               perCnt := if pm then 0 else if pre then s.perCnt + 1 else s.perCnt
               tx := if pm then false else if cm then !s.tx else s.tx
               perEn := if pm then false else s.perEn
               carEn := if pm then false else s.carEn
               records := s.records ++ if pm then [.burstEnd] else [] }

/-- R105: `RST` writes every item, whatever the state before, and emits no record; it is the only operation that sets
`SER_EN` and `RECOG_N`. The undelivered inputs and the records are the model's own and stay. -/
def Obligations.ResetEffect : Prop :=
  decode 0x700 = .ok .rst ∧
  (∀ s : State, exec .rst s =
    .next { frame := ⟨false, false, false, false⟩, pos := 0, acc := 0, rcv := false, snd := false, datEn := true,
            serEn := true, perEn := false, carEn := false, tx := false, hb := false, prog := false, recogN := true,
            preCnt := 0, perCnt := 0, carCnt := 0, input := s.input, records := s.records }) ∧
  (∀ (i : Instr) (s t : State), i ≠ .rst → exec i s = .next t →
    (t.serEn = true → s.serEn = true) ∧ (t.recogN = true → s.recogN = true))

/-- R38: the value of every item after reset. -/
def Obligations.StateAfterReset : Prop :=
  State.reset.frame = ⟨false, false, false, false⟩ ∧ State.reset.pos = 0 ∧ State.reset.acc = 0 ∧
  State.reset.inMode .idle ∧ State.reset.datEn = true ∧ State.reset.serEn = true ∧ State.reset.perEn = false ∧
  State.reset.carEn = false ∧ State.reset.tx = false ∧ State.reset.hb = false ∧ State.reset.prog = false ∧
  State.reset.recogN = true ∧ State.reset.preCnt = 0 ∧ State.reset.perCnt = 0 ∧ State.reset.carCnt = 0

/-- R54: frame equality is the pairwise comparison of four elements; only `{1,1,1,0}` equals the start code. -/
def Obligations.FrameEqualityIsPairwise : Prop :=
  (∀ f g : Frame, f.equals g = true ↔ ∀ i : BitIndex, f.get i = g.get i) ∧
  (∀ f : Frame, f.equals startCode = true ↔
    f.get 0 = true ∧ f.get 1 = true ∧ f.get 2 = true ∧ f.get 3 = false)

/-- R119: every way an event can be without effect. -/
def Obligations.MaskedEventsLeaveNoTrace : Prop :=
  ∀ s : State,
    (s.datEn = false → exec .dat s = .next s) ∧
    (∀ b, s.serEn = false → exec (.ser b) s = .next s) ∧
    (s.perEn = false → exec .pmatch s = .next s) ∧
    (s.carEn = false → exec .cmatch s = .next s) ∧
    (∀ b, b ≠ 0x61 → exec (.ser b) s = .next s) ∧
    (s.perEn = true → s.carEn = true → arm s = s)

/-! ## What a port shows -/

/-- R58: the output pin vector, bit by bit, and its value after reset. -/
def Obligations.OutputPinVector : Prop :=
  (∀ s : State,
    s.out.getLsbD 5 = s.datEn ∧ s.out.getLsbD 4 = s.serEn ∧ s.out.getLsbD 3 = s.tx ∧ s.out.getLsbD 2 = s.hb ∧
    s.out.getLsbD 1 = s.prog ∧ s.out.getLsbD 0 = s.recogN ∧
    s.out.getLsbD 5 = s.snap.getLsbD 7 ∧ s.out.getLsbD 4 = s.snap.getLsbD 6 ∧ s.out.extractLsb' 0 4 = s.snap.extractLsb' 0 4) ∧
  State.reset.out = 0x31

/-- R36: the layout of the snapshot word; it determines the thirteen untimed items, and the word of the reset state. -/
def Obligations.SnapshotWord : Prop :=
  (∀ s : State,
    s.snap.extractLsb' 16 8 = s.acc ∧ (∀ i : BitIndex, s.snap.getLsbD (12 + i) = s.frame.get i) ∧
    s.snap.extractLsb' 10 2 = BitVec.ofFin s.pos ∧ s.snap.getLsbD 9 = s.snd ∧ s.snap.getLsbD 8 = s.rcv ∧
    s.snap.getLsbD 7 = s.datEn ∧ s.snap.getLsbD 6 = s.serEn ∧ s.snap.getLsbD 5 = s.perEn ∧
    s.snap.getLsbD 4 = s.carEn ∧ s.snap.getLsbD 3 = s.tx ∧ s.snap.getLsbD 2 = s.hb ∧ s.snap.getLsbD 1 = s.prog ∧
    s.snap.getLsbD 0 = s.recogN ∧ s.out = s.snap.extractLsb' 6 2 ++ s.snap.extractLsb' 0 4 ∧
    { State.ofSnap s.snap s.preCnt s.perCnt s.carCnt with input := s.input, records := s.records } = s) ∧
  (∀ (w : SnapWord) (a b c : Nat), (State.ofSnap w a b c).snap = w) ∧
  State.reset.snap = 0x0000C1

/-! ## The cycle of the timed profile -/

/-- R57, R107: a cycle performs the operations its pin vector stands for, in the fixed order, each on the state the one
before left; the records are theirs in order. -/
def Obligations.CyclePerformsItsOperations : Prop :=
  ∀ (v : PinVector) (s : State),
    runOps
      (if v.getLsbD 12 = true then [.rst]
       else [.tick] ++ (if v.getLsbD 11 = true then [.clk] else []) ++ (if v.getLsbD 10 = true then [.dat] else [])
         ++ (if v.getLsbD 9 = true then [.btn] else [])
         ++ (if v.getLsbD 8 = true then [.ser (v.extractLsb' 0 8)] else [])) s
    = .next (cycle Config.timer v s)

/-- Reset overrides every other input, however long it is held (R108). -/
def Obligations.HeldResetOverridesEverything : Prop :=
  ∀ (p : TimerParams) (s : State) (v : PinVector) (vs : List PinVector),
    (∀ u ∈ v :: vs, u.getLsbD 12 = true) →
    runCycles p (v :: vs) s = { State.reset with input := s.input, records := s.records }

/-- A cycle does not look at the byte when `ser_stb` is 0, nor at anything else when `rst` is 1 (R65). -/
def Obligations.UnusedPinsAreIgnored : Prop :=
  ∀ (p : TimerParams) (s : State) (v u : PinVector),
    (v.getLsbD 12 = true → u.getLsbD 12 = true → cycle p v s = cycle p u s) ∧
    (v.getLsbD 8 = false → v.extractLsb' 8 5 = u.extractLsb' 8 5 → cycle p v s = cycle p u s)

/-! ## Whole-machine rules -/

/-- The reset state satisfies the invariants (R141), whatever the timer constants. -/
def Obligations.ResetSatisfiesTheInvariants : Prop := ∀ p : TimerParams, State.reset.Inv p

/-- The invariants R31 to R39, R71, the two relations R72 names, and the counters' ranges are kept by every step. -/
def Obligations.StepKeepsTheInvariants : Prop :=
  ∀ s t : State, s.Inv Config.timer → step s = .next t → t.Inv Config.timer

/-- In a state that satisfies the invariants every counter fits the width R6 gives it. -/
def Obligations.CountersFitTheirWidths : Prop :=
  ∀ (p : TimerParams) (s : State), s.Inv p →
    s.preCnt < 2 ^ p.preW ∧ s.perCnt < 2 ^ p.perW ∧ s.carCnt < 2 ^ p.carW

/-- The mode state machine: the mode after every operation in every mode (R75). -/
def Obligations.ModeTransitions : Prop :=
  ∀ (p : TimerParams) (s : State) (i : Instr), s.Inv p →
    (s.inMode .idle ∨ s.inMode .receiving ∨ s.inMode .sending) ∧
    ∃ t, exec i s = .next t ∧ ∀ m, s.inMode m → t.inMode
      (match m, i with
        | _, .rst => .idle
        | .idle, .dat => .receiving
        | .idle, .btn => .sending
        | .idle, .ser b => if s.serEn = true ∧ b = 0x61 then .sending else .idle
        | .receiving, .clk => if s.pos = 3 then .idle else .receiving
        | .sending, .clk => if s.pos = 3 then .idle else .sending
        | m, _ => m)

/-- Which operation may change which item; every other operation leaves it (10_state.md R11 to R25). -/
def Obligations.WhoWritesWhat : Prop :=
  ∀ (i : Instr) (s t : State), exec i s = .next t →
    (t.frame ≠ s.frame → (i = .clk ∧ s.rcv = true) ∨ i = .rst) ∧
    (t.pos ≠ s.pos → i = .clk ∨ (i = .dat ∧ s.datEn = true) ∨ i = .btn ∨ i = .ser 0x61 ∨ i = .rst) ∧
    (t.acc ≠ s.acc → (i = .dat ∧ s.datEn = true) ∨ (i = .clk ∧ s.rcv = true) ∨ i = .rst) ∧
    (t.rcv ≠ s.rcv → (i = .dat ∧ s.datEn = true) ∨ (i = .clk ∧ s.rcv = true ∧ s.pos = 3) ∨ i = .rst) ∧
    (t.snd ≠ s.snd → i = .btn ∨ i = .ser 0x61 ∨ (i = .clk ∧ s.rcv = false ∧ s.pos = 3) ∨ i = .rst) ∧
    (t.datEn ≠ s.datEn → i = .btn ∨ i = .ser 0x61 ∨ (i = .clk ∧ s.snd = true ∧ s.pos = 3) ∨ i = .rst) ∧
    (t.serEn ≠ s.serEn → i = .btn ∨ i = .ser 0x61 ∨ i = .rst) ∧
    (t.perEn ≠ s.perEn ∨ t.carEn ≠ s.carEn → i = .clk ∨ i = .pmatch ∨ i = .tick ∨ i = .rst) ∧
    (t.tx ≠ s.tx → (i = .cmatch ∧ s.carEn = true) ∨ (i = .pmatch ∧ s.perEn = true) ∨ i = .tick ∨ i = .rst) ∧
    (t.hb ≠ s.hb → i = .clk ∨ i = .rst) ∧
    (t.prog ≠ s.prog → (i = .clk ∧ s.rcv = true) ∨ i = .rst) ∧
    (t.recogN ≠ s.recogN → (i = .clk ∧ s.rcv = true ∧ s.pos = 3) ∨ i = .rst) ∧
    (t.preCnt ≠ s.preCnt ∨ t.perCnt ≠ s.perCnt ∨ t.carCnt ≠ s.carCnt → i = .clk ∨ i = .tick ∨ i = .rst) ∧
    t.input = s.input ∧
    ∃ new, t.records = s.records ++ new ∧ (new ≠ [] → i = .clk ∨ i = .pmatch ∨ i = .tick)

/-- Every `CLK` leaves the timer armed, in every mode and whatever the bit, and starts at most one burst: one exactly if
none was running (R84, R86). -/
def Obligations.EveryClockEdgeArmsOnce : Prop :=
  ∀ s : State, ∃ t, exec .clk s = .next t ∧ t.perEn = true ∧ t.carEn = true ∧
    t.records.count .burst = s.records.count .burst + if s.perEn = true then 0 else 1

/-- The five operations of R47 that are idempotent. -/
def Obligations.IdempotentOperations : Prop :=
  ∀ (i : Instr) (s t : State), (i = .rst ∨ i = .nop ∨ i = .pmatch ∨ i = .btn ∨ ∃ b, i = .ser b) →
    exec i s = .next t → exec i t = .next t

/-- Without a reset `RECOG_N` stays low once low (R22), and `SER_EN` stays 0 once 0 (R16). -/
def Obligations.RecognitionAndClosedPathAreSticky : Prop :=
  ∀ (es : List Instr) (s : State), (∀ i ∈ es, i ≠ .rst) →
    ∃ t, runOps es s = .next t ∧ (s.recogN = false → t.recogN = false) ∧ (s.serEn = false → t.serEn = false)

/-- `SER_EN` tells whether a send has started since the serial path was last open (R39). -/
def Obligations.SerialPathTellsOfASend : Prop :=
  ∀ (s t : State) (es : List Instr), s.serEn = true → s.snd = false → (∀ i ∈ es, i ≠ .rst) →
    runOps es s = .next t →
    (t.serEn = true ↔ ∀ es₁ es₂ u, es = es₁ ++ es₂ → runOps es₁ s = .next u → u.snd = false)

/-- No timeout: without a clock edge or a reset a receive and a send go on for ever (R87, R117); a receive only counts
pulses, up to 255. -/
def Obligations.StalledProtocolStaysStalled : Prop :=
  ∀ (s : State) (es : List Instr), (∀ i ∈ es, i ≠ .clk ∧ i ≠ .rst) →
    (s.inMode .receiving → s.datEn = true →
      ∃ t, runOps es s = .next t ∧ t.inMode .receiving ∧ t.pos = s.pos ∧ t.frame = s.frame ∧ t.datEn = true ∧
        t.serEn = s.serEn ∧ t.acc.toNat = min 255 (s.acc.toNat + es.count .dat)) ∧
    (s.inMode .sending → s.datEn = false →
      ∃ t, runOps es s = .next t ∧ t.inMode .sending ∧ t.pos = s.pos ∧ t.frame = s.frame ∧ t.datEn = false ∧
        t.acc = s.acc)

/-- A receive from Idle: the four bits are whether a pulse came in each of the four bit periods, whatever else arrives; the
first is 1; the recognized-frame action fires at the fourth clock edge and not before, exactly if the frame is the
start code (R77, R85). -/
def Obligations.ReceiveAssemblesTheFrame : Prop :=
  ∀ (s : State) (e0 e1 e2 e3 : List Instr),
    s.inMode .idle → s.datEn = true → (∀ i ∈ e0 ++ e1 ++ e2 ++ e3, i ≠ .clk ∧ i ≠ .rst) →
    let f : Frame := ⟨true, decide (.dat ∈ e1), decide (.dat ∈ e2), decide (.dat ∈ e3)⟩
    ∃ u t,
      runOps (.dat :: e0 ++ .clk :: e1 ++ .clk :: e2 ++ .clk :: e3) s = .next u ∧
      u.recogN = s.recogN ∧ u.records.count .recog = s.records.count .recog ∧
      exec .clk u = .next t ∧ t.frame = f ∧ t.inMode .idle ∧ t.pos = 0 ∧ t.acc = 0 ∧
      t.datEn = s.datEn ∧ t.serEn = s.serEn ∧ t.recogN = (s.recogN && f != startCode) ∧
      t.records.count .recog = s.records.count .recog + if f = startCode then 1 else 0

/-- Of the sixteen data patterns fed from Idle only `{1,1,1,0}` fires the recognized-frame action within its four periods
(95_test_vectors.md S2, S3). -/
def Obligations.OnlyTheStartCodeIsRecognized : Prop :=
  ∀ (f : Frame) (s : State), s.inMode .idle → s.datEn = true → s.recogN = true →
    ∃ t, runOps (rxFrame f) s = .next t ∧ (t.recogN = false ↔ f = startCode) ∧
      t.records.count .recog = s.records.count .recog + if f = startCode then 1 else 0

/-- A send from Idle: the bits handed to the Bit Timer over the four clock edges are 1, 1, 1, 0, whatever else arrives, and
at the fourth the mode is Idle, the data path open and the serial path closed (R78, R92). -/
def Obligations.SendPresentsTheStartCode : Prop :=
  ∀ (s : State) (request : Instr) (e0 e1 e2 e3 : List Instr),
    s.inMode .idle → request = .btn ∨ (request = .ser 0x61 ∧ s.serEn = true) →
    (∀ i ∈ e0 ++ e1 ++ e2 ++ e3, i ≠ .clk ∧ i ≠ .rst) →
    ∃ t, runOps (request :: e0 ++ .clk :: e1 ++ .clk :: e2 ++ .clk :: e3 ++ [.clk]) s = .next t ∧
      sentBits t.records = sentBits s.records ++ [true, true, true, false] ∧
      t.inMode .idle ∧ t.pos = 0 ∧ t.datEn = true ∧ t.serEn = false ∧
      t.frame = s.frame ∧ t.acc = s.acc ∧ t.recogN = s.recogN ∧ t.prog = s.prog

/-- The frame buffer is not observable in Idle: two states that differ in it alone stay equal in everything else under any
operations (R11). -/
def Obligations.IdleFrameIsUnobservable : Prop :=
  ∀ (s : State) (f : Frame) (es : List Instr), s.Inv Config.timer → s.inMode .idle →
    ∃ t u, runOps es s = .next t ∧ runOps es { s with frame := f } = .next u ∧
      { u with frame := t.frame } = t ∧ u.out = t.out ∧ u.records = t.records

/-- Only whether the accumulator is zero matters: two states that agree on that and on everything but `ACC` go on to do so
(R13). -/
def Obligations.OnlyZeroOrNotOfTheAccumulatorMatters : Prop :=
  ∀ (s : State) (a : Byte) (es : List Instr), (a = 0 ↔ s.acc = 0) →
    ∃ t u, runOps es s = .next t ∧ runOps es { s with acc := a } = .next u ∧
      { u with acc := t.acc } = t ∧ (u.acc = 0 ↔ t.acc = 0)

/-! ## The burst -/

/-- With no input event and the timer off nothing ever changes (R106, the source's property 7). -/
def Obligations.IdleIsStable : Prop :=
  ∀ (p : TimerParams) (s : State) (n : Nat), s.perEn = false → s.carEn = false →
    runCycles p (waitCycles n) s = s ∧ runOps (idle n) s = .next s ∧ runOps (waitTicks n) s = .next s

/-- From the cycle that arms a disabled timer, through any `n < L` further cycles without reset and whatever events arrive
in them, the burst runs, the counters show `n` and the line has toggled `n / C` times (R97, R98, R145). -/
def Obligations.BurstRunsUndisturbed : Prop :=
  ∀ (p : TimerParams) (s : State) (v : PinVector) (vs : List PinVector),
    s.perEn = false → s.carEn = false → s.tx = false → v.getLsbD 12 = false → v.getLsbD 11 = true →
    (∀ u ∈ vs, u.getLsbD 12 = false) → vs.length < p.burstCycles →
    let t := runCycles p (v :: vs) s
    t.perEn = true ∧ t.carEn = true ∧ t.preCnt = vs.length % p.prescale ∧ t.perCnt = vs.length / p.prescale ∧
      t.carCnt = vs.length % p.carrierTarget ∧ t.tx = decide (vs.length / p.carrierTarget % 2 = 1) ∧
      t.records.count .burst = s.records.count .burst + 1 ∧
      t.records.count .burstEnd = s.records.count .burstEnd

/-- In the cycle `L` cycles after the arming one the burst ends with the line at 0, and a clock edge in that very cycle
starts a new one (R97, R99, R107). -/
def Obligations.BurstEndsOnTime : Prop :=
  ∀ (p : TimerParams) (s : State) (v u : PinVector) (vs : List PinVector),
    s.perEn = false → s.carEn = false → s.tx = false → v.getLsbD 12 = false → v.getLsbD 11 = true →
    (∀ x ∈ vs, x.getLsbD 12 = false) → vs.length + 1 = p.burstCycles → u.getLsbD 12 = false →
    let t := runCycles p (v :: vs ++ [u]) s
    t.tx = false ∧ t.records.count .burstEnd = s.records.count .burstEnd + 1 ∧
      (u.getLsbD 11 = false → t.perEn = false ∧ t.carEn = false) ∧
      (u.getLsbD 11 = true → t.perEn = true ∧ t.carEn = true ∧ t.preCnt = 0 ∧ t.perCnt = 0 ∧ t.carCnt = 0 ∧
        t.records.count .burst = s.records.count .burst + 2)

/-- R110: every timed run projects onto a run of the untimed profile with the same state but for the counters and the same
records. -/
def Obligations.TimedRunsProjectOntoUntimedRuns : Prop :=
  ∀ (p : TimerParams) (vs : List PinVector) (s : State),
    (∀ i ∈ projectRun p vs s, i.allowedIn .untimed = true) ∧
    runOps (projectRun p vs s) s.dropCounters = .next (runCycles p vs s).dropCounters

/-- Under the fairness assumption of the untimed profile every burst ends (R100). -/
def Obligations.FairUntimedBurstsEnd : Prop :=
  ∀ (es : Nat → Instr) (s : State) (n : Nat), fairRun es s → (stateAt es s n).perEn = true →
    ∃ m, n < m ∧ (stateAt es s m).perEn = false

/-- R110 with R100: the untimed run a timed run projects onto delivers no match to a disabled source. -/
def Obligations.ProjectedRunsDeliverNoStrayMatch : Prop :=
  ∀ (p : TimerParams) (vs : List PinVector) (s : State), noStrayMatch (projectRun p vs s) s.dropCounters

/-! ## Invariants as steps -/

/-- The step of R97 and R98: while a burst is at its `n`-th cycle, every cycle without reset and whatever events it carries takes
it to its next one and starts and ends no burst, before the last cycle; in the last it ends with the line at 0. -/
def Obligations.EveryCycleAdvancesTheBurst : Prop :=
  ∀ (p : TimerParams) (n : Nat) (s : State) (v : PinVector), s.BurstAt p n → v.getLsbD 12 = false →
    let t := cycle p v s
    (n + 1 < p.burstCycles → t.BurstAt p (n + 1) ∧
      t.records.count .burst = s.records.count .burst ∧ t.records.count .burstEnd = s.records.count .burstEnd) ∧
    (n + 1 = p.burstCycles → t.tx = false ∧ t.records.count .burstEnd = s.records.count .burstEnd + 1 ∧
      (v.getLsbD 11 = false → t.perEn = false ∧ t.carEn = false) ∧ (v.getLsbD 11 = true → t.BurstAt p 0))

/-- At reset the timer is off and the line at rest, which is the base case of `StepsKeepBurstsOnTime`. -/
def Obligations.ResetIsBetweenBursts : Prop :=
  State.reset.perEn = false ∧ State.reset.carEn = false ∧ State.reset.tx = false ∧
  ∀ p : TimerParams, State.reset.BurstOnTime p

/-- Whatever is delivered but a `CMATCH` from outside, which the timed profile does not admit (R65), the timer stays off with the
line at rest or at a cycle of a burst of `L`; the other operations that are not the timer's or a reset leave it at its cycle. -/
def Obligations.StepsKeepBurstsOnTime : Prop :=
  ∀ s t : State, s.BurstOnTime Config.timer → step s = .next t →
    ((∀ rest, s.input ≠ .word (encode .cmatch) :: rest) → t.BurstOnTime Config.timer) ∧
    (∀ i rest n, s.input = .word (encode i) :: rest → i ≠ .rst → i ≠ .tick → i ≠ .pmatch → i ≠ .cmatch →
      s.BurstAt Config.timer n → t.BurstAt Config.timer n)

/-- What keeps the frame buffer unobservable (R11, R41): two states that satisfy the invariants and agree on everything but
elements of `FRAME` still to be written do so after any step, and then show the same pins and have emitted the same records. -/
def Obligations.StepsKeepUnreadFrameUnobservable : Prop :=
  ∀ s u : State, s.Inv Config.timer → AgreeOnReadFrame s u →
    (∀ r, step s = .refused r → step u = .refused r) ∧
    (∀ t, step s = .next t → ∃ v, step u = .next v ∧ AgreeOnReadFrame t v ∧ v.out = t.out ∧ v.records = t.records)
end

