-- ==== Sys2Proof/Laws/State.lean ====
section
/-! SUPPORT. One lemma per field for the named updates of the state, so that no later proof unfolds one. -/

namespace Sys2Proof.Machine

/-! ### `emit` -/

@[simp] theorem emit_frame (e : Record) (s : State) : (emit e s).frame = s.frame := rfl
@[simp] theorem emit_pos (e : Record) (s : State) : (emit e s).pos = s.pos := rfl
@[simp] theorem emit_acc (e : Record) (s : State) : (emit e s).acc = s.acc := rfl
@[simp] theorem emit_rcv (e : Record) (s : State) : (emit e s).rcv = s.rcv := rfl
@[simp] theorem emit_snd (e : Record) (s : State) : (emit e s).snd = s.snd := rfl
@[simp] theorem emit_datEn (e : Record) (s : State) : (emit e s).datEn = s.datEn := rfl
@[simp] theorem emit_serEn (e : Record) (s : State) : (emit e s).serEn = s.serEn := rfl
@[simp] theorem emit_perEn (e : Record) (s : State) : (emit e s).perEn = s.perEn := rfl
@[simp] theorem emit_carEn (e : Record) (s : State) : (emit e s).carEn = s.carEn := rfl
@[simp] theorem emit_tx (e : Record) (s : State) : (emit e s).tx = s.tx := rfl
@[simp] theorem emit_hb (e : Record) (s : State) : (emit e s).hb = s.hb := rfl
@[simp] theorem emit_prog (e : Record) (s : State) : (emit e s).prog = s.prog := rfl
@[simp] theorem emit_recogN (e : Record) (s : State) : (emit e s).recogN = s.recogN := rfl
@[simp] theorem emit_preCnt (e : Record) (s : State) : (emit e s).preCnt = s.preCnt := rfl
@[simp] theorem emit_perCnt (e : Record) (s : State) : (emit e s).perCnt = s.perCnt := rfl
@[simp] theorem emit_carCnt (e : Record) (s : State) : (emit e s).carCnt = s.carCnt := rfl
@[simp] theorem emit_input (e : Record) (s : State) : (emit e s).input = s.input := rfl
@[simp] theorem emit_records (e : Record) (s : State) : (emit e s).records = s.records ++ [e] := rfl

/-! ### `Arm()` (R90) -/

@[simp] theorem arm_frame (s : State) : (arm s).frame = s.frame := by
  unfold arm; by_cases hp : s.perEn <;> by_cases hc : s.carEn <;> simp [hp, hc]
@[simp] theorem arm_pos (s : State) : (arm s).pos = s.pos := by
  unfold arm; by_cases hp : s.perEn <;> by_cases hc : s.carEn <;> simp [hp, hc]
@[simp] theorem arm_acc (s : State) : (arm s).acc = s.acc := by
  unfold arm; by_cases hp : s.perEn <;> by_cases hc : s.carEn <;> simp [hp, hc]
@[simp] theorem arm_rcv (s : State) : (arm s).rcv = s.rcv := by
  unfold arm; by_cases hp : s.perEn <;> by_cases hc : s.carEn <;> simp [hp, hc]
@[simp] theorem arm_snd (s : State) : (arm s).snd = s.snd := by
  unfold arm; by_cases hp : s.perEn <;> by_cases hc : s.carEn <;> simp [hp, hc]
@[simp] theorem arm_datEn (s : State) : (arm s).datEn = s.datEn := by
  unfold arm; by_cases hp : s.perEn <;> by_cases hc : s.carEn <;> simp [hp, hc]
@[simp] theorem arm_serEn (s : State) : (arm s).serEn = s.serEn := by
  unfold arm; by_cases hp : s.perEn <;> by_cases hc : s.carEn <;> simp [hp, hc]
@[simp] theorem arm_perEn (s : State) : (arm s).perEn = true := rfl
@[simp] theorem arm_carEn (s : State) : (arm s).carEn = true := rfl
@[simp] theorem arm_tx (s : State) : (arm s).tx = s.tx := by
  unfold arm; by_cases hp : s.perEn <;> by_cases hc : s.carEn <;> simp [hp, hc]
@[simp] theorem arm_hb (s : State) : (arm s).hb = s.hb := by
  unfold arm; by_cases hp : s.perEn <;> by_cases hc : s.carEn <;> simp [hp, hc]
@[simp] theorem arm_prog (s : State) : (arm s).prog = s.prog := by
  unfold arm; by_cases hp : s.perEn <;> by_cases hc : s.carEn <;> simp [hp, hc]
@[simp] theorem arm_recogN (s : State) : (arm s).recogN = s.recogN := by
  unfold arm; by_cases hp : s.perEn <;> by_cases hc : s.carEn <;> simp [hp, hc]
@[simp] theorem arm_preCnt (s : State) : (arm s).preCnt = if s.perEn then s.preCnt else 0 := by
  unfold arm; by_cases hp : s.perEn <;> by_cases hc : s.carEn <;> simp [hp, hc]
@[simp] theorem arm_perCnt (s : State) : (arm s).perCnt = if s.perEn then s.perCnt else 0 := by
  unfold arm; by_cases hp : s.perEn <;> by_cases hc : s.carEn <;> simp [hp, hc]
@[simp] theorem arm_carCnt (s : State) : (arm s).carCnt = if s.carEn then s.carCnt else 0 := by
  unfold arm; by_cases hp : s.perEn <;> by_cases hc : s.carEn <;> simp [hp, hc]
@[simp] theorem arm_input (s : State) : (arm s).input = s.input := by
  unfold arm; by_cases hp : s.perEn <;> by_cases hc : s.carEn <;> simp [hp, hc]
@[simp] theorem arm_records (s : State) : (arm s).records = s.records ++ if s.perEn then [] else [.burst] := by
  unfold arm; by_cases hp : s.perEn <;> by_cases hc : s.carEn <;> simp [hp, hc]

/-! ### Counting within `TICK` (R95) -/

@[simp] theorem count_frame (p : TimerParams) (s : State) : (count p s).frame = s.frame := rfl
@[simp] theorem count_pos (p : TimerParams) (s : State) : (count p s).pos = s.pos := rfl
@[simp] theorem count_acc (p : TimerParams) (s : State) : (count p s).acc = s.acc := rfl
@[simp] theorem count_rcv (p : TimerParams) (s : State) : (count p s).rcv = s.rcv := rfl
@[simp] theorem count_snd (p : TimerParams) (s : State) : (count p s).snd = s.snd := rfl
@[simp] theorem count_datEn (p : TimerParams) (s : State) : (count p s).datEn = s.datEn := rfl
@[simp] theorem count_serEn (p : TimerParams) (s : State) : (count p s).serEn = s.serEn := rfl
@[simp] theorem count_perEn (p : TimerParams) (s : State) : (count p s).perEn = s.perEn := rfl
@[simp] theorem count_carEn (p : TimerParams) (s : State) : (count p s).carEn = s.carEn := rfl
@[simp] theorem count_tx (p : TimerParams) (s : State) : (count p s).tx = s.tx := rfl
@[simp] theorem count_hb (p : TimerParams) (s : State) : (count p s).hb = s.hb := rfl
@[simp] theorem count_prog (p : TimerParams) (s : State) : (count p s).prog = s.prog := rfl
@[simp] theorem count_recogN (p : TimerParams) (s : State) : (count p s).recogN = s.recogN := rfl
@[simp] theorem count_preCnt (p : TimerParams) (s : State) : (count p s).preCnt = if s.perEn then countUp p.prescale s.preCnt else s.preCnt := rfl
@[simp] theorem count_perCnt (p : TimerParams) (s : State) : (count p s).perCnt = if prescaledCount p s then countUp p.periodTarget s.perCnt else s.perCnt := rfl
@[simp] theorem count_carCnt (p : TimerParams) (s : State) : (count p s).carCnt = if s.carEn then countUp p.carrierTarget s.carCnt else s.carCnt := rfl
@[simp] theorem count_input (p : TimerParams) (s : State) : (count p s).input = s.input := rfl
@[simp] theorem count_records (p : TimerParams) (s : State) : (count p s).records = s.records := rfl

/-! ### `PMATCH` (R93) -/

@[simp] theorem pmatch_frame (s : State) : (pmatch s).frame = s.frame := by
  unfold pmatch; by_cases h : s.perEn <;> simp [h]
@[simp] theorem pmatch_pos (s : State) : (pmatch s).pos = s.pos := by
  unfold pmatch; by_cases h : s.perEn <;> simp [h]
@[simp] theorem pmatch_acc (s : State) : (pmatch s).acc = s.acc := by
  unfold pmatch; by_cases h : s.perEn <;> simp [h]
@[simp] theorem pmatch_rcv (s : State) : (pmatch s).rcv = s.rcv := by
  unfold pmatch; by_cases h : s.perEn <;> simp [h]
@[simp] theorem pmatch_snd (s : State) : (pmatch s).snd = s.snd := by
  unfold pmatch; by_cases h : s.perEn <;> simp [h]
@[simp] theorem pmatch_datEn (s : State) : (pmatch s).datEn = s.datEn := by
  unfold pmatch; by_cases h : s.perEn <;> simp [h]
@[simp] theorem pmatch_serEn (s : State) : (pmatch s).serEn = s.serEn := by
  unfold pmatch; by_cases h : s.perEn <;> simp [h]
@[simp] theorem pmatch_perEn (s : State) : (pmatch s).perEn = false := by
  unfold pmatch; by_cases h : s.perEn <;> simp [h]
@[simp] theorem pmatch_carEn (s : State) : (pmatch s).carEn = if s.perEn then false else s.carEn := by
  unfold pmatch; by_cases h : s.perEn <;> simp [h]
@[simp] theorem pmatch_tx (s : State) : (pmatch s).tx = if s.perEn then false else s.tx := by
  unfold pmatch; by_cases h : s.perEn <;> simp [h]
@[simp] theorem pmatch_hb (s : State) : (pmatch s).hb = s.hb := by
  unfold pmatch; by_cases h : s.perEn <;> simp [h]
@[simp] theorem pmatch_prog (s : State) : (pmatch s).prog = s.prog := by
  unfold pmatch; by_cases h : s.perEn <;> simp [h]
@[simp] theorem pmatch_recogN (s : State) : (pmatch s).recogN = s.recogN := by
  unfold pmatch; by_cases h : s.perEn <;> simp [h]
@[simp] theorem pmatch_preCnt (s : State) : (pmatch s).preCnt = s.preCnt := by
  unfold pmatch; by_cases h : s.perEn <;> simp [h]
@[simp] theorem pmatch_perCnt (s : State) : (pmatch s).perCnt = s.perCnt := by
  unfold pmatch; by_cases h : s.perEn <;> simp [h]
@[simp] theorem pmatch_carCnt (s : State) : (pmatch s).carCnt = s.carCnt := by
  unfold pmatch; by_cases h : s.perEn <;> simp [h]
@[simp] theorem pmatch_input (s : State) : (pmatch s).input = s.input := by
  unfold pmatch; by_cases h : s.perEn <;> simp [h]
@[simp] theorem pmatch_records (s : State) : (pmatch s).records = s.records ++ if s.perEn then [.burstEnd] else [] := by
  unfold pmatch; by_cases h : s.perEn <;> simp [h]

/-! ### `CMATCH` (R94) -/

@[simp] theorem cmatch_frame (s : State) : (cmatch s).frame = s.frame := by
  unfold cmatch; by_cases h : s.carEn <;> simp [h]
@[simp] theorem cmatch_pos (s : State) : (cmatch s).pos = s.pos := by
  unfold cmatch; by_cases h : s.carEn <;> simp [h]
@[simp] theorem cmatch_acc (s : State) : (cmatch s).acc = s.acc := by
  unfold cmatch; by_cases h : s.carEn <;> simp [h]
@[simp] theorem cmatch_rcv (s : State) : (cmatch s).rcv = s.rcv := by
  unfold cmatch; by_cases h : s.carEn <;> simp [h]
@[simp] theorem cmatch_snd (s : State) : (cmatch s).snd = s.snd := by
  unfold cmatch; by_cases h : s.carEn <;> simp [h]
@[simp] theorem cmatch_datEn (s : State) : (cmatch s).datEn = s.datEn := by
  unfold cmatch; by_cases h : s.carEn <;> simp [h]
@[simp] theorem cmatch_serEn (s : State) : (cmatch s).serEn = s.serEn := by
  unfold cmatch; by_cases h : s.carEn <;> simp [h]
@[simp] theorem cmatch_perEn (s : State) : (cmatch s).perEn = s.perEn := by
  unfold cmatch; by_cases h : s.carEn <;> simp [h]
@[simp] theorem cmatch_carEn (s : State) : (cmatch s).carEn = s.carEn := by
  unfold cmatch; by_cases h : s.carEn <;> simp [h]
@[simp] theorem cmatch_tx (s : State) : (cmatch s).tx = if s.carEn then !s.tx else s.tx := by
  unfold cmatch; by_cases h : s.carEn <;> simp [h]
@[simp] theorem cmatch_hb (s : State) : (cmatch s).hb = s.hb := by
  unfold cmatch; by_cases h : s.carEn <;> simp [h]
@[simp] theorem cmatch_prog (s : State) : (cmatch s).prog = s.prog := by
  unfold cmatch; by_cases h : s.carEn <;> simp [h]
@[simp] theorem cmatch_recogN (s : State) : (cmatch s).recogN = s.recogN := by
  unfold cmatch; by_cases h : s.carEn <;> simp [h]
@[simp] theorem cmatch_preCnt (s : State) : (cmatch s).preCnt = s.preCnt := by
  unfold cmatch; by_cases h : s.carEn <;> simp [h]
@[simp] theorem cmatch_perCnt (s : State) : (cmatch s).perCnt = s.perCnt := by
  unfold cmatch; by_cases h : s.carEn <;> simp [h]
@[simp] theorem cmatch_carCnt (s : State) : (cmatch s).carCnt = s.carCnt := by
  unfold cmatch; by_cases h : s.carEn <;> simp [h]
@[simp] theorem cmatch_input (s : State) : (cmatch s).input = s.input := by
  unfold cmatch; by_cases h : s.carEn <;> simp [h]
@[simp] theorem cmatch_records (s : State) : (cmatch s).records = s.records := by
  unfold cmatch; by_cases h : s.carEn <;> simp [h]

/-! ### `SendRequest()` (R80) -/

@[simp] theorem sendRequest_frame (s : State) : (sendRequest s).frame = s.frame := by
  unfold sendRequest; cases s.isIdle <;> simp
@[simp] theorem sendRequest_pos (s : State) : (sendRequest s).pos = if s.isIdle then 0 else s.pos := by
  unfold sendRequest; cases s.isIdle <;> simp
@[simp] theorem sendRequest_acc (s : State) : (sendRequest s).acc = s.acc := by
  unfold sendRequest; cases s.isIdle <;> simp
@[simp] theorem sendRequest_rcv (s : State) : (sendRequest s).rcv = s.rcv := by
  unfold sendRequest; cases s.isIdle <;> simp
@[simp] theorem sendRequest_snd (s : State) : (sendRequest s).snd = (s.isIdle || s.snd) := by
  unfold sendRequest; cases s.isIdle <;> simp
@[simp] theorem sendRequest_datEn (s : State) : (sendRequest s).datEn = (!s.isIdle && s.datEn) := by
  unfold sendRequest; cases s.isIdle <;> simp
@[simp] theorem sendRequest_serEn (s : State) : (sendRequest s).serEn = (!s.isIdle && s.serEn) := by
  unfold sendRequest; cases s.isIdle <;> simp
@[simp] theorem sendRequest_perEn (s : State) : (sendRequest s).perEn = s.perEn := by
  unfold sendRequest; cases s.isIdle <;> simp
@[simp] theorem sendRequest_carEn (s : State) : (sendRequest s).carEn = s.carEn := by
  unfold sendRequest; cases s.isIdle <;> simp
@[simp] theorem sendRequest_tx (s : State) : (sendRequest s).tx = s.tx := by
  unfold sendRequest; cases s.isIdle <;> simp
@[simp] theorem sendRequest_hb (s : State) : (sendRequest s).hb = s.hb := by
  unfold sendRequest; cases s.isIdle <;> simp
@[simp] theorem sendRequest_prog (s : State) : (sendRequest s).prog = s.prog := by
  unfold sendRequest; cases s.isIdle <;> simp
@[simp] theorem sendRequest_recogN (s : State) : (sendRequest s).recogN = s.recogN := by
  unfold sendRequest; cases s.isIdle <;> simp
@[simp] theorem sendRequest_preCnt (s : State) : (sendRequest s).preCnt = s.preCnt := by
  unfold sendRequest; cases s.isIdle <;> simp
@[simp] theorem sendRequest_perCnt (s : State) : (sendRequest s).perCnt = s.perCnt := by
  unfold sendRequest; cases s.isIdle <;> simp
@[simp] theorem sendRequest_carCnt (s : State) : (sendRequest s).carCnt = s.carCnt := by
  unfold sendRequest; cases s.isIdle <;> simp
@[simp] theorem sendRequest_input (s : State) : (sendRequest s).input = s.input := by
  unfold sendRequest; cases s.isIdle <;> simp
@[simp] theorem sendRequest_records (s : State) : (sendRequest s).records = s.records := by
  unfold sendRequest; cases s.isIdle <;> simp

/-! ### `RST` (R105): every item of R38, whatever the state before -/

theorem rst_eq (s : State) : rst s = { State.reset with input := s.input, records := s.records } := rfl

end Sys2Proof.Machine
end

