-- ==== Sys2Proof/Laws/Ops.lean ====
section
/-! SUPPORT. What the shared operations can do, said once each. -/

namespace Sys2Proof.Machine

/-! ### The frame buffer and the arithmetic -/

@[simp] theorem Frame.get_set_same (f : Frame) (i : BitIndex) (b : Bool) : (f.set i b).get i = b := by
  fin_cases i <;> rfl

theorem Frame.get_set_other (f : Frame) {i j : BitIndex} (b : Bool) (h : j ≠ i) : (f.set i b).get j = f.get j := by
  fin_cases i <;> fin_cases j <;> first | rfl | exact absurd rfl h

theorem Frame.equals_iff_eq (f g : Frame) : f.equals g = true ↔ f = g := by
  obtain ⟨a, b, c, d⟩ := f
  obtain ⟨a', b', c', d'⟩ := g
  simp [Frame.equals, and_assoc]

theorem Frame.equals_eq_decide (f g : Frame) : f.equals g = decide (f = g) := by
  rw [Bool.eq_iff_iff, Frame.equals_iff_eq, decide_eq_true_iff]

/-- The saturating increment never answers 0 (R13, R156). -/
theorem satInc8_ne_zero (v : Byte) : satInc8 v ≠ 0 := by
  revert v; decide

theorem atMatch_iff (target : ℕ+) (n : Nat) : atMatch target n = true ↔ n + 1 = target := by
  have h := target.pos
  simp only [atMatch, beq_iff_eq]
  omega

/-- A counter in its range stays in it (R102). -/
theorem countUp_lt {target : ℕ+} {n : Nat} (h : n < target) : countUp target n < target := by
  have h0 := target.pos
  have hm := atMatch_iff target n
  unfold countUp
  split
  · exact h0
  · have : ¬n + 1 = target := fun e => by simp_all
    omega

/-- A counter that shows `n` modulo its target shows `n + 1` modulo it after one count (R102). -/
theorem countUp_mod (target : ℕ+) (n : Nat) : countUp target (n % target) = (n + 1) % target := by
  have hpos := target.pos
  have hmatch := atMatch_iff target (n % target)
  have hlt := Nat.mod_lt n hpos
  rw [Nat.add_mod]
  unfold countUp
  by_cases h1 : (target : Nat) = 1
  · simp only [h1, Nat.mod_one] at *
    simp [hmatch]
  · rw [Nat.mod_eq_of_lt (show 1 < (target : Nat) by omega)]
    split
    · rw [hmatch.1 ‹_›, Nat.mod_self]
    · have : ¬n % target + 1 = target := fun e => by simp_all
      exact (Nat.mod_eq_of_lt (by omega)).symm

/-- The quotient by the target grows at a match and only there (R97, R98). -/
theorem succ_div_target (target : ℕ+) (n : Nat) :
    (n + 1) / (target : Nat) = n / target + if atMatch target (n % target) then 1 else 0 := by
  have hdvd : (target : Nat) ∣ n + 1 ↔ atMatch target (n % target) = true := by
    rw [Nat.dvd_iff_mod_eq_zero, ← countUp_mod, countUp]
    split <;> simp_all
  rw [Nat.succ_div]
  simp only [hdvd]

/-! ### The internal procedures -/

/-- `Arm()` on an armed timer changes nothing (R90). -/
theorem arm_of_armed {s : State} (hp : s.perEn = true) (hc : s.carEn = true) : arm s = s := by
  cases s
  simp_all [arm]

theorem sendRequest_of_idle {s : State} (h : s.isIdle = true) :
    sendRequest s = { s with snd := true, serEn := false, datEn := false, pos := 0 } := by
  simp [sendRequest, h]

theorem sendRequest_of_busy {s : State} (h : s.isIdle = false) : sendRequest s = s := by
  simp [sendRequest, h]

theorem isIdle_iff (s : State) : s.isIdle = true ↔ s.rcv = false ∧ s.snd = false := by
  simp [State.isIdle]

/-! ### `TICK` (R95), field by field -/

theorem periodMatch_perEn {p : TimerParams} {s : State} (h : periodMatch p s = true) : s.perEn = true := by
  simp only [periodMatch, prescaledCount, Bool.and_eq_true] at h
  exact h.1.1

theorem carrierMatch_carEn {p : TimerParams} {s : State} (h : carrierMatch p s = true) : s.carEn = true := by
  simp only [carrierMatch, Bool.and_eq_true] at h
  exact h.1

@[simp] theorem tick_frame (p : TimerParams) (s : State) : (tick p s).frame = s.frame := by
  unfold tick; cases periodMatch p s <;> cases carrierMatch p s <;> simp
@[simp] theorem tick_pos (p : TimerParams) (s : State) : (tick p s).pos = s.pos := by
  unfold tick; cases periodMatch p s <;> cases carrierMatch p s <;> simp
@[simp] theorem tick_acc (p : TimerParams) (s : State) : (tick p s).acc = s.acc := by
  unfold tick; cases periodMatch p s <;> cases carrierMatch p s <;> simp
@[simp] theorem tick_rcv (p : TimerParams) (s : State) : (tick p s).rcv = s.rcv := by
  unfold tick; cases periodMatch p s <;> cases carrierMatch p s <;> simp
@[simp] theorem tick_snd (p : TimerParams) (s : State) : (tick p s).snd = s.snd := by
  unfold tick; cases periodMatch p s <;> cases carrierMatch p s <;> simp
@[simp] theorem tick_datEn (p : TimerParams) (s : State) : (tick p s).datEn = s.datEn := by
  unfold tick; cases periodMatch p s <;> cases carrierMatch p s <;> simp
@[simp] theorem tick_serEn (p : TimerParams) (s : State) : (tick p s).serEn = s.serEn := by
  unfold tick; cases periodMatch p s <;> cases carrierMatch p s <;> simp
@[simp] theorem tick_hb (p : TimerParams) (s : State) : (tick p s).hb = s.hb := by
  unfold tick; cases periodMatch p s <;> cases carrierMatch p s <;> simp
@[simp] theorem tick_prog (p : TimerParams) (s : State) : (tick p s).prog = s.prog := by
  unfold tick; cases periodMatch p s <;> cases carrierMatch p s <;> simp
@[simp] theorem tick_recogN (p : TimerParams) (s : State) : (tick p s).recogN = s.recogN := by
  unfold tick; cases periodMatch p s <;> cases carrierMatch p s <;> simp
@[simp] theorem tick_input (p : TimerParams) (s : State) : (tick p s).input = s.input := by
  unfold tick; cases periodMatch p s <;> cases carrierMatch p s <;> simp
@[simp] theorem tick_preCnt (p : TimerParams) (s : State) :
    (tick p s).preCnt = if s.perEn then countUp p.prescale s.preCnt else s.preCnt := by
  unfold tick; cases periodMatch p s <;> cases carrierMatch p s <;> simp
@[simp] theorem tick_perCnt (p : TimerParams) (s : State) :
    (tick p s).perCnt = if prescaledCount p s then countUp p.periodTarget s.perCnt else s.perCnt := by
  unfold tick; cases periodMatch p s <;> cases carrierMatch p s <;> simp
@[simp] theorem tick_carCnt (p : TimerParams) (s : State) :
    (tick p s).carCnt = if s.carEn then countUp p.carrierTarget s.carCnt else s.carCnt := by
  unfold tick; cases periodMatch p s <;> cases carrierMatch p s <;> simp
@[simp] theorem tick_perEn (p : TimerParams) (s : State) :
    (tick p s).perEn = (s.perEn && !periodMatch p s) := by
  have h := @periodMatch_perEn p s
  have h' := @carrierMatch_carEn p s
  unfold tick; cases hp : periodMatch p s <;> cases hc : carrierMatch p s <;> simp_all
@[simp] theorem tick_carEn (p : TimerParams) (s : State) :
    (tick p s).carEn = (s.carEn && !periodMatch p s) := by
  have h := @periodMatch_perEn p s
  have h' := @carrierMatch_carEn p s
  unfold tick; cases hp : periodMatch p s <;> cases hc : carrierMatch p s <;> simp_all
@[simp] theorem tick_tx (p : TimerParams) (s : State) :
    (tick p s).tx = (!periodMatch p s && (s.tx ^^ carrierMatch p s)) := by
  have h := @periodMatch_perEn p s
  have h' := @carrierMatch_carEn p s
  unfold tick; cases hp : periodMatch p s <;> cases hc : carrierMatch p s <;> simp_all
@[simp] theorem tick_records (p : TimerParams) (s : State) :
    (tick p s).records = s.records ++ if periodMatch p s then [.burstEnd] else [] := by
  have h := @periodMatch_perEn p s
  have h' := @carrierMatch_carEn p s
  unfold tick; cases hp : periodMatch p s <;> cases hc : carrierMatch p s <;> simp_all

/-! ### The branches of `CLK` (R76) -/

/-- One received bit: what step 3 of `CLK` writes, at and before completion. -/
theorem receiveBit_cases (s : State) :
    (s.pos ≠ 3 ∧ receiveBit s =
      { s with frame := s.frame.set s.pos (resolveBit s.acc), acc := 0, prog := !s.prog, pos := s.pos + 1 }) ∨
    (s.pos = 3 ∧ s.frame.set 3 (resolveBit s.acc) ≠ startCode ∧ receiveBit s =
      { s with frame := s.frame.set 3 (resolveBit s.acc), acc := 0, prog := !s.prog, pos := 0, rcv := false }) ∨
    (s.pos = 3 ∧ s.frame.set 3 (resolveBit s.acc) = startCode ∧ receiveBit s =
      { s with frame := startCode, acc := 0, prog := !s.prog, pos := 0, rcv := false, recogN := false,
               records := s.records ++ [.recog] }) := by
  by_cases hp : s.pos = 3
  · by_cases hf : s.frame.set 3 (resolveBit s.acc) = startCode
    · exact .inr (.inr ⟨hp, hf, by simp [receiveBit, hp, hf, (Frame.equals_iff_eq _ _).2, emit]⟩)
    · have : ¬(s.frame.set 3 (resolveBit s.acc)).equals startCode = true := fun e => hf ((Frame.equals_iff_eq _ _).1 e)
      exact .inr (.inl ⟨hp, hf, by simp [receiveBit, hp, this]⟩)
  · exact .inl ⟨hp, by simp [receiveBit, hp]⟩

/-- One sent bit: what step 4 of `CLK` writes when the timer is armed, as step 2 leaves it. -/
theorem sendNextBit_of_armed {s : State} (hp : s.perEn = true) (hc : s.carEn = true) :
    sendNextBit s =
      { s with records := s.records ++ [.sent (startCode.get s.pos)]
               pos := if s.pos = 3 then 0 else s.pos + 1
               snd := if s.pos = 3 then false else s.snd
               datEn := if s.pos = 3 then true else s.datEn } := by
  have h : sendBit (startCode.get s.pos) s = emit (.sent (startCode.get s.pos)) s :=
    arm_of_armed (s := emit _ s) hp hc
  unfold sendNextBit
  simp only [h]
  split <;> simp_all [emit]

/-! ### Every operation completes -/

/-- The state an operation leaves. -/
def after : Instr → State → State
  | .nop, s => s
  | .clk, s => clk s
  | .dat, s => dat s
  | .btn, s => btn s
  | .ser b, s => ser b s
  | .pmatch, s => pmatch s
  | .cmatch, s => cmatch s
  | .rst, s => rst s
  | .tick, s => tick Config.timer s

theorem exec_eq_after (i : Instr) (s : State) : exec i s = .next (after i s) := by
  cases i <;> rfl

theorem runOps_cons (i : Instr) (is : List Instr) (s : State) : runOps (i :: is) s = runOps is (after i s) := by
  simp [runOps, exec_eq_after]

theorem runOps_append (is js : List Instr) (s t : State) (h : runOps is s = .next t) :
    runOps (is ++ js) s = runOps js t := by
  induction is generalizing s with
  | nil => simp_all [runOps]
  | cons i is ih =>
    rw [List.cons_append, runOps_cons]
    exact ih _ (by rwa [runOps_cons] at h)

/-- A step, by the kind of its next input. -/
theorem step_nil {s : State} (h : s.input = []) : step s = .next s := by
  simp [step, h]

theorem step_word {s : State} {w : EventWord} {rest : List Input} {i : Instr} (h : s.input = .word w :: rest)
    (hd : decode w = .ok i) : step s = .next (after i { s with input := rest }) := by
  simp [step, h, hd, exec_eq_after]

theorem step_refused {s : State} {w : EventWord} {rest : List Input} {e : DecodeError} (h : s.input = .word w :: rest)
    (hd : decode w = .error e) : step s = .refused (refusalOf e) := by
  simp [step, h, hd]

theorem step_pins {s : State} {v : PinVector} {rest : List Input} (h : s.input = .pins v :: rest) :
    step s = .next (cycle Config.timer v { s with input := rest }) := by
  simp [step, h]

/-- A run of the machine goes on from the state its first step answers. -/
theorem run_of_next {s t : State} (h : step s = .next t) (n : Nat) :
    Host.Core.run Sys2Proof.core (n + 1) s = Host.Core.run Sys2Proof.core n t := by
  have h' : Sys2Proof.core.step s = .next t := h
  simp only [Host.Core.run, h']

end Sys2Proof.Machine
end

