-- ==== Sys2Proof/Laws/Instr.lean ====
section
/-! SUPPORT. The operations of the Frame Assembler field by field, and the operations over states that differ in what no
operation reads. -/

namespace Sys2Proof.Machine

/-! ### `CLK` (R76) -/

/-- The `CLK` completes a receive whose frame is the start code (R77). -/
def recognizes (s : State) : Bool :=
  s.rcv && s.pos == 3 && (s.frame.set 3 (resolveBit s.acc)).equals startCode

theorem clk_of_armed_timer (s : State) :
    ∃ a, a = arm { s with hb := !s.hb } ∧ a.perEn = true ∧ a.carEn = true ∧
      clk s = if a.rcv then receiveBit a else if a.snd then sendNextBit a else a :=
  ⟨_, rfl, arm_perEn _, arm_carEn _, rfl⟩

@[simp] theorem clk_frame (s : State) : (clk s).frame = if s.rcv then s.frame.set s.pos (resolveBit s.acc) else s.frame := by
  obtain ⟨a, ha, hp, hc, e⟩ := clk_of_armed_timer s
  rw [e]
  subst ha
  rcases Bool.eq_false_or_eq_true s.rcv with hr | hr
  · rw [if_pos (by simp [hr])]
    rcases receiveBit_cases (arm _) with ⟨h, r⟩ | ⟨h, h', r⟩ | ⟨h, h', r⟩ <;> rw [r] <;> simp_all
  · rw [if_neg (by simp [hr]), sendNextBit_of_armed hp hc]
    cases hs : s.snd <;> by_cases h3 : s.pos = 3 <;> simp_all
@[simp] theorem clk_pos (s : State) : (clk s).pos = if s.rcv || s.snd then s.pos + 1 else s.pos := by
  obtain ⟨a, ha, hp, hc, e⟩ := clk_of_armed_timer s
  rw [e]
  subst ha
  rcases Bool.eq_false_or_eq_true s.rcv with hr | hr
  · rw [if_pos (by simp [hr])]
    rcases receiveBit_cases (arm _) with ⟨h, r⟩ | ⟨h, h', r⟩ | ⟨h, h', r⟩ <;> rw [r] <;> simp_all
  · rw [if_neg (by simp [hr]), sendNextBit_of_armed hp hc]
    cases hs : s.snd <;> by_cases h3 : s.pos = 3 <;> simp_all
@[simp] theorem clk_acc (s : State) : (clk s).acc = if s.rcv then 0 else s.acc := by
  obtain ⟨a, ha, hp, hc, e⟩ := clk_of_armed_timer s
  rw [e]
  subst ha
  rcases Bool.eq_false_or_eq_true s.rcv with hr | hr
  · rw [if_pos (by simp [hr])]
    rcases receiveBit_cases (arm _) with ⟨h, r⟩ | ⟨h, h', r⟩ | ⟨h, h', r⟩ <;> rw [r] <;> simp_all
  · rw [if_neg (by simp [hr]), sendNextBit_of_armed hp hc]
    cases hs : s.snd <;> by_cases h3 : s.pos = 3 <;> simp_all
@[simp] theorem clk_rcv (s : State) : (clk s).rcv = (s.rcv && s.pos != 3) := by
  obtain ⟨a, ha, hp, hc, e⟩ := clk_of_armed_timer s
  rw [e]
  subst ha
  rcases Bool.eq_false_or_eq_true s.rcv with hr | hr
  · rw [if_pos (by simp [hr])]
    rcases receiveBit_cases (arm _) with ⟨h, r⟩ | ⟨h, h', r⟩ | ⟨h, h', r⟩ <;> rw [r] <;> simp_all
  · rw [if_neg (by simp [hr]), sendNextBit_of_armed hp hc]
    cases hs : s.snd <;> by_cases h3 : s.pos = 3 <;> simp_all
@[simp] theorem clk_snd (s : State) : (clk s).snd = (s.snd && (s.rcv || s.pos != 3)) := by
  obtain ⟨a, ha, hp, hc, e⟩ := clk_of_armed_timer s
  rw [e]
  subst ha
  rcases Bool.eq_false_or_eq_true s.rcv with hr | hr
  · rw [if_pos (by simp [hr])]
    rcases receiveBit_cases (arm _) with ⟨h, r⟩ | ⟨h, h', r⟩ | ⟨h, h', r⟩ <;> rw [r] <;> simp_all
  · rw [if_neg (by simp [hr]), sendNextBit_of_armed hp hc]
    cases hs : s.snd <;> by_cases h3 : s.pos = 3 <;> simp_all
@[simp] theorem clk_datEn (s : State) : (clk s).datEn = (s.datEn || (!s.rcv && s.snd && s.pos == 3)) := by
  obtain ⟨a, ha, hp, hc, e⟩ := clk_of_armed_timer s
  rw [e]
  subst ha
  rcases Bool.eq_false_or_eq_true s.rcv with hr | hr
  · rw [if_pos (by simp [hr])]
    rcases receiveBit_cases (arm _) with ⟨h, r⟩ | ⟨h, h', r⟩ | ⟨h, h', r⟩ <;> rw [r] <;> simp_all
  · rw [if_neg (by simp [hr]), sendNextBit_of_armed hp hc]
    cases hs : s.snd <;> by_cases h3 : s.pos = 3 <;> simp_all
@[simp] theorem clk_serEn (s : State) : (clk s).serEn = s.serEn := by
  obtain ⟨a, ha, hp, hc, e⟩ := clk_of_armed_timer s
  rw [e]
  subst ha
  rcases Bool.eq_false_or_eq_true s.rcv with hr | hr
  · rw [if_pos (by simp [hr])]
    rcases receiveBit_cases (arm _) with ⟨h, r⟩ | ⟨h, h', r⟩ | ⟨h, h', r⟩ <;> rw [r] <;> simp_all
  · rw [if_neg (by simp [hr]), sendNextBit_of_armed hp hc]
    cases hs : s.snd <;> by_cases h3 : s.pos = 3 <;> simp_all
@[simp] theorem clk_perEn (s : State) : (clk s).perEn = true := by
  obtain ⟨a, ha, hp, hc, e⟩ := clk_of_armed_timer s
  rw [e]
  subst ha
  rcases Bool.eq_false_or_eq_true s.rcv with hr | hr
  · rw [if_pos (by simp [hr])]
    rcases receiveBit_cases (arm _) with ⟨h, r⟩ | ⟨h, h', r⟩ | ⟨h, h', r⟩ <;> rw [r] <;> simp_all
  · rw [if_neg (by simp [hr]), sendNextBit_of_armed hp hc]
    cases hs : s.snd <;> by_cases h3 : s.pos = 3 <;> simp_all
@[simp] theorem clk_carEn (s : State) : (clk s).carEn = true := by
  obtain ⟨a, ha, hp, hc, e⟩ := clk_of_armed_timer s
  rw [e]
  subst ha
  rcases Bool.eq_false_or_eq_true s.rcv with hr | hr
  · rw [if_pos (by simp [hr])]
    rcases receiveBit_cases (arm _) with ⟨h, r⟩ | ⟨h, h', r⟩ | ⟨h, h', r⟩ <;> rw [r] <;> simp_all
  · rw [if_neg (by simp [hr]), sendNextBit_of_armed hp hc]
    cases hs : s.snd <;> by_cases h3 : s.pos = 3 <;> simp_all
@[simp] theorem clk_tx (s : State) : (clk s).tx = s.tx := by
  obtain ⟨a, ha, hp, hc, e⟩ := clk_of_armed_timer s
  rw [e]
  subst ha
  rcases Bool.eq_false_or_eq_true s.rcv with hr | hr
  · rw [if_pos (by simp [hr])]
    rcases receiveBit_cases (arm _) with ⟨h, r⟩ | ⟨h, h', r⟩ | ⟨h, h', r⟩ <;> rw [r] <;> simp_all
  · rw [if_neg (by simp [hr]), sendNextBit_of_armed hp hc]
    cases hs : s.snd <;> by_cases h3 : s.pos = 3 <;> simp_all
@[simp] theorem clk_hb (s : State) : (clk s).hb = !s.hb := by
  obtain ⟨a, ha, hp, hc, e⟩ := clk_of_armed_timer s
  rw [e]
  subst ha
  rcases Bool.eq_false_or_eq_true s.rcv with hr | hr
  · rw [if_pos (by simp [hr])]
    rcases receiveBit_cases (arm _) with ⟨h, r⟩ | ⟨h, h', r⟩ | ⟨h, h', r⟩ <;> rw [r] <;> simp_all
  · rw [if_neg (by simp [hr]), sendNextBit_of_armed hp hc]
    cases hs : s.snd <;> by_cases h3 : s.pos = 3 <;> simp_all
@[simp] theorem clk_prog (s : State) : (clk s).prog = (s.prog ^^ s.rcv) := by
  obtain ⟨a, ha, hp, hc, e⟩ := clk_of_armed_timer s
  rw [e]
  subst ha
  rcases Bool.eq_false_or_eq_true s.rcv with hr | hr
  · rw [if_pos (by simp [hr])]
    rcases receiveBit_cases (arm _) with ⟨h, r⟩ | ⟨h, h', r⟩ | ⟨h, h', r⟩ <;> rw [r] <;> simp_all
  · rw [if_neg (by simp [hr]), sendNextBit_of_armed hp hc]
    cases hs : s.snd <;> by_cases h3 : s.pos = 3 <;> simp_all
@[simp] theorem clk_recogN (s : State) : (clk s).recogN = (s.recogN && !recognizes s) := by
  obtain ⟨a, ha, hp, hc, e⟩ := clk_of_armed_timer s
  rw [e]
  subst ha
  rcases Bool.eq_false_or_eq_true s.rcv with hr | hr
  · rw [if_pos (by simp [hr])]
    rcases receiveBit_cases (arm _) with ⟨h, r⟩ | ⟨h, h', r⟩ | ⟨h, h', r⟩ <;> rw [r] <;> simp_all [recognizes, Frame.equals_eq_decide]
  · rw [if_neg (by simp [hr]), sendNextBit_of_armed hp hc]
    cases hs : s.snd <;> by_cases h3 : s.pos = 3 <;> simp_all [recognizes, Frame.equals_eq_decide]
@[simp] theorem clk_preCnt (s : State) : (clk s).preCnt = if s.perEn then s.preCnt else 0 := by
  obtain ⟨a, ha, hp, hc, e⟩ := clk_of_armed_timer s
  rw [e]
  subst ha
  rcases Bool.eq_false_or_eq_true s.rcv with hr | hr
  · rw [if_pos (by simp [hr])]
    rcases receiveBit_cases (arm _) with ⟨h, r⟩ | ⟨h, h', r⟩ | ⟨h, h', r⟩ <;> rw [r] <;> simp_all
  · rw [if_neg (by simp [hr]), sendNextBit_of_armed hp hc]
    cases hs : s.snd <;> by_cases h3 : s.pos = 3 <;> simp_all
@[simp] theorem clk_perCnt (s : State) : (clk s).perCnt = if s.perEn then s.perCnt else 0 := by
  obtain ⟨a, ha, hp, hc, e⟩ := clk_of_armed_timer s
  rw [e]
  subst ha
  rcases Bool.eq_false_or_eq_true s.rcv with hr | hr
  · rw [if_pos (by simp [hr])]
    rcases receiveBit_cases (arm _) with ⟨h, r⟩ | ⟨h, h', r⟩ | ⟨h, h', r⟩ <;> rw [r] <;> simp_all
  · rw [if_neg (by simp [hr]), sendNextBit_of_armed hp hc]
    cases hs : s.snd <;> by_cases h3 : s.pos = 3 <;> simp_all
@[simp] theorem clk_carCnt (s : State) : (clk s).carCnt = if s.carEn then s.carCnt else 0 := by
  obtain ⟨a, ha, hp, hc, e⟩ := clk_of_armed_timer s
  rw [e]
  subst ha
  rcases Bool.eq_false_or_eq_true s.rcv with hr | hr
  · rw [if_pos (by simp [hr])]
    rcases receiveBit_cases (arm _) with ⟨h, r⟩ | ⟨h, h', r⟩ | ⟨h, h', r⟩ <;> rw [r] <;> simp_all
  · rw [if_neg (by simp [hr]), sendNextBit_of_armed hp hc]
    cases hs : s.snd <;> by_cases h3 : s.pos = 3 <;> simp_all
@[simp] theorem clk_input (s : State) : (clk s).input = s.input := by
  obtain ⟨a, ha, hp, hc, e⟩ := clk_of_armed_timer s
  rw [e]
  subst ha
  rcases Bool.eq_false_or_eq_true s.rcv with hr | hr
  · rw [if_pos (by simp [hr])]
    rcases receiveBit_cases (arm _) with ⟨h, r⟩ | ⟨h, h', r⟩ | ⟨h, h', r⟩ <;> rw [r] <;> simp_all
  · rw [if_neg (by simp [hr]), sendNextBit_of_armed hp hc]
    cases hs : s.snd <;> by_cases h3 : s.pos = 3 <;> simp_all
@[simp] theorem clk_records (s : State) : (clk s).records = s.records ++ (if s.perEn then [] else [.burst]) ++ (if recognizes s then [.recog] else [])
      ++ if !s.rcv && s.snd then [.sent (startCode.get s.pos)] else [] := by
  obtain ⟨a, ha, hp, hc, e⟩ := clk_of_armed_timer s
  rw [e]
  subst ha
  rcases Bool.eq_false_or_eq_true s.rcv with hr | hr
  · rw [if_pos (by simp [hr])]
    rcases receiveBit_cases (arm _) with ⟨h, r⟩ | ⟨h, h', r⟩ | ⟨h, h', r⟩ <;> rw [r] <;> simp_all [recognizes, Frame.equals_eq_decide]
  · rw [if_neg (by simp [hr]), sendNextBit_of_armed hp hc]
    cases hs : s.snd <;> by_cases h3 : s.pos = 3 <;> simp_all [recognizes, Frame.equals_eq_decide]

/-! ### `DAT` (R79) -/

@[simp] theorem dat_frame (s : State) : (dat s).frame = s.frame := by
  unfold dat; by_cases h : s.datEn <;> cases s.isIdle <;> simp [h]
@[simp] theorem dat_pos (s : State) : (dat s).pos = if s.datEn && s.isIdle then 0 else s.pos := by
  unfold dat; by_cases h : s.datEn <;> cases s.isIdle <;> simp [h]
@[simp] theorem dat_acc (s : State) : (dat s).acc = if s.datEn then satInc8 s.acc else s.acc := by
  unfold dat; by_cases h : s.datEn <;> cases s.isIdle <;> simp [h]
@[simp] theorem dat_rcv (s : State) : (dat s).rcv = (s.datEn || s.rcv) := by
  unfold dat; by_cases h : s.datEn <;> cases s.isIdle <;> simp [h]
@[simp] theorem dat_snd (s : State) : (dat s).snd = s.snd := by
  unfold dat; by_cases h : s.datEn <;> cases s.isIdle <;> simp [h]
@[simp] theorem dat_datEn (s : State) : (dat s).datEn = s.datEn := by
  unfold dat; by_cases h : s.datEn <;> cases s.isIdle <;> simp [h]
@[simp] theorem dat_serEn (s : State) : (dat s).serEn = s.serEn := by
  unfold dat; by_cases h : s.datEn <;> cases s.isIdle <;> simp [h]
@[simp] theorem dat_perEn (s : State) : (dat s).perEn = s.perEn := by
  unfold dat; by_cases h : s.datEn <;> cases s.isIdle <;> simp [h]
@[simp] theorem dat_carEn (s : State) : (dat s).carEn = s.carEn := by
  unfold dat; by_cases h : s.datEn <;> cases s.isIdle <;> simp [h]
@[simp] theorem dat_tx (s : State) : (dat s).tx = s.tx := by
  unfold dat; by_cases h : s.datEn <;> cases s.isIdle <;> simp [h]
@[simp] theorem dat_hb (s : State) : (dat s).hb = s.hb := by
  unfold dat; by_cases h : s.datEn <;> cases s.isIdle <;> simp [h]
@[simp] theorem dat_prog (s : State) : (dat s).prog = s.prog := by
  unfold dat; by_cases h : s.datEn <;> cases s.isIdle <;> simp [h]
@[simp] theorem dat_recogN (s : State) : (dat s).recogN = s.recogN := by
  unfold dat; by_cases h : s.datEn <;> cases s.isIdle <;> simp [h]
@[simp] theorem dat_preCnt (s : State) : (dat s).preCnt = s.preCnt := by
  unfold dat; by_cases h : s.datEn <;> cases s.isIdle <;> simp [h]
@[simp] theorem dat_perCnt (s : State) : (dat s).perCnt = s.perCnt := by
  unfold dat; by_cases h : s.datEn <;> cases s.isIdle <;> simp [h]
@[simp] theorem dat_carCnt (s : State) : (dat s).carCnt = s.carCnt := by
  unfold dat; by_cases h : s.datEn <;> cases s.isIdle <;> simp [h]
@[simp] theorem dat_input (s : State) : (dat s).input = s.input := by
  unfold dat; by_cases h : s.datEn <;> cases s.isIdle <;> simp [h]
@[simp] theorem dat_records (s : State) : (dat s).records = s.records := by
  unfold dat; by_cases h : s.datEn <;> cases s.isIdle <;> simp [h]

/-! ### `SER b` (R82) -/

/-- The byte is taken as a send request (R82). -/
def accepts (b : Byte) (s : State) : Bool := s.serEn && b == cmdByte && s.isIdle

@[simp] theorem ser_frame (b : Byte) (s : State) : (ser b s).frame = s.frame := by
  unfold ser; by_cases h : s.serEn <;> cases b == cmdByte <;> simp [h]
@[simp] theorem ser_pos (b : Byte) (s : State) : (ser b s).pos = if accepts b s then 0 else s.pos := by
  unfold ser accepts; by_cases h : s.serEn <;> cases b == cmdByte <;> simp [h]
@[simp] theorem ser_acc (b : Byte) (s : State) : (ser b s).acc = s.acc := by
  unfold ser; by_cases h : s.serEn <;> cases b == cmdByte <;> simp [h]
@[simp] theorem ser_rcv (b : Byte) (s : State) : (ser b s).rcv = s.rcv := by
  unfold ser; by_cases h : s.serEn <;> cases b == cmdByte <;> simp [h]
@[simp] theorem ser_snd (b : Byte) (s : State) : (ser b s).snd = (accepts b s || s.snd) := by
  unfold ser accepts; by_cases h : s.serEn <;> cases b == cmdByte <;> simp [h]
@[simp] theorem ser_datEn (b : Byte) (s : State) : (ser b s).datEn = (!accepts b s && s.datEn) := by
  unfold ser accepts; by_cases h : s.serEn <;> cases b == cmdByte <;> simp [h]
@[simp] theorem ser_serEn (b : Byte) (s : State) : (ser b s).serEn = (!accepts b s && s.serEn) := by
  unfold ser accepts; by_cases h : s.serEn <;> cases b == cmdByte <;> simp [h]
@[simp] theorem ser_perEn (b : Byte) (s : State) : (ser b s).perEn = s.perEn := by
  unfold ser; by_cases h : s.serEn <;> cases b == cmdByte <;> simp [h]
@[simp] theorem ser_carEn (b : Byte) (s : State) : (ser b s).carEn = s.carEn := by
  unfold ser; by_cases h : s.serEn <;> cases b == cmdByte <;> simp [h]
@[simp] theorem ser_tx (b : Byte) (s : State) : (ser b s).tx = s.tx := by
  unfold ser; by_cases h : s.serEn <;> cases b == cmdByte <;> simp [h]
@[simp] theorem ser_hb (b : Byte) (s : State) : (ser b s).hb = s.hb := by
  unfold ser; by_cases h : s.serEn <;> cases b == cmdByte <;> simp [h]
@[simp] theorem ser_prog (b : Byte) (s : State) : (ser b s).prog = s.prog := by
  unfold ser; by_cases h : s.serEn <;> cases b == cmdByte <;> simp [h]
@[simp] theorem ser_recogN (b : Byte) (s : State) : (ser b s).recogN = s.recogN := by
  unfold ser; by_cases h : s.serEn <;> cases b == cmdByte <;> simp [h]
@[simp] theorem ser_preCnt (b : Byte) (s : State) : (ser b s).preCnt = s.preCnt := by
  unfold ser; by_cases h : s.serEn <;> cases b == cmdByte <;> simp [h]
@[simp] theorem ser_perCnt (b : Byte) (s : State) : (ser b s).perCnt = s.perCnt := by
  unfold ser; by_cases h : s.serEn <;> cases b == cmdByte <;> simp [h]
@[simp] theorem ser_carCnt (b : Byte) (s : State) : (ser b s).carCnt = s.carCnt := by
  unfold ser; by_cases h : s.serEn <;> cases b == cmdByte <;> simp [h]
@[simp] theorem ser_input (b : Byte) (s : State) : (ser b s).input = s.input := by
  unfold ser; by_cases h : s.serEn <;> cases b == cmdByte <;> simp [h]
@[simp] theorem ser_records (b : Byte) (s : State) : (ser b s).records = s.records := by
  unfold ser; by_cases h : s.serEn <;> cases b == cmdByte <;> simp [h]

end Sys2Proof.Machine
end

