-- ==== Sys2Proof/Laws/PerInstr.lean ====
section
/-! SUPPORT. Facts stated of every operation as syntax, one lemma per constructor. -/

namespace Sys2Proof.Laws.Encoded

/-- The word of the operation is not reserved (R63, R64) and stands in the operation's own row of the table (R62). -/
def Statement (i : Instr) : Prop := (encode i).wellFormed = true ∧ i.row.accepts (encode i) = true

theorem nop : Statement .nop := by unfold Statement; decide
theorem clk : Statement .clk := by unfold Statement; decide
theorem dat : Statement .dat := by unfold Statement; decide
theorem btn : Statement .btn := by unfold Statement; decide
theorem ser (b : Byte) : Statement (.ser b) := by unfold Statement; revert b; decide
theorem pmatch : Statement .pmatch := by unfold Statement; decide
theorem cmatch : Statement .cmatch := by unfold Statement; decide
theorem rst : Statement .rst := by unfold Statement; decide
theorem tick : Statement .tick := by unfold Statement; decide

end Sys2Proof.Laws.Encoded
end

