-- ==== Sys2Proof/Laws/Trace.lean ====
section
/-! SUPPORT. What the words of a trace name, and when operations are those of cycles. -/

namespace Sys2Proof.Machine

/-- The word of an operation names it. -/
@[simp] theorem operation_encode (i : Instr) : (Input.word (encode i)).operation = some i := by
  cases i with
  | ser b => revert b; decide
  | _ => rfl

@[simp] theorem operation_pins (v : PinVector) : (Input.pins v).operation = none := rfl

theorem operations_cons (x : Input) (xs : List Input) :
    operations (x :: xs) = x.operation.bind fun i => (operations xs).map (i :: ·) := by
  rw [operations]
  cases x.operation <;> cases operations xs <;> rfl

/-- The words of a list of operations name that list. -/
@[simp] theorem operations_words (is : List Instr) : operations (is.map fun i => .word (encode i)) = some is := by
  induction is with
  | nil => rfl
  | cons i is ih => simp [operations_cons, ih]

/-- A trace with a pin vector in it is none of event words. -/
theorem operations_eq_none_of_pins {v : PinVector} {xs : List Input} (h : Input.pins v ∈ xs) : operations xs = none := by
  induction xs with
  | nil => cases h
  | cons x xs ih =>
    rw [operations_cons]
    rcases List.mem_cons.1 h with rfl | h
    · rfl
    · cases x.operation <;> simp [ih h]

/-- The operations of one cycle carry on any sequence of cycles, and what follows them begins a cycle. -/
theorem continuesCycles_expandPins (last : Nat) (v : PinVector) (is : List Instr) (h : wholeCycles is = true) :
    continuesCycles last (expandPins v ++ is) = true := by
  have hle : ∀ n, n ≤ 5 → continuesCycles n is = true := by
    intro n hn
    cases is with
    | nil => rfl
    | cons i is =>
      unfold wholeCycles at h
      rw [continuesCycles] at *
      cases hp : cyclePlace i with
      | none => simp [hp] at h
      | some place =>
        simp only [hp, Bool.and_eq_true, Bool.or_eq_true, beq_iff_eq, decide_eq_true_eq] at *
        exact ⟨by omega, h.2⟩
  unfold expandPins
  cases pinRst v <;> cases pinClk v <;> cases pinDat v <;> cases pinBtn v <;> cases pinSerStb v <;>
    simp [continuesCycles, cyclePlace, hle]

/-- The operations of any pin vectors are whole cycles (R57). -/
theorem wholeCycles_expandPins (vs : List PinVector) : wholeCycles (vs.flatMap expandPins) = true := by
  induction vs with
  | nil => rfl
  | cons v vs ih => exact continuesCycles_expandPins 5 v _ ih

end Sys2Proof.Machine
end

