-- ==== Sys2Proof/Tests/Slice0.lean ====
section
/-! SUPPORT. Tests and witnesses. Every expected value is written out from the spec: 95_test_vectors.md (the vectors of its
sections 2 to 4, by the snapshot words it gives) or the rule a test names. `TICK` and the cycle are tested with the
timer constants of the vector, since the machine's own have no body. -/

namespace Sys2Proof.Tests

open Sys2Proof Sys2Proof.Machine

/-- An untimed state of the vectors. -/
def snap (w : SnapWord) : State := State.ofSnap w 0 0 0

/-- What a vector shows of an outcome: the snapshot word and the records. -/
def shows : Host.Outcome State Fault Refusal → Option (SnapWord × List Record)
  | .next s => some (s.snap, s.records)
  | .fault _ => none
  | .refused _ => none

/-- What a timed vector shows of a state. -/
def showsTimed (s : State) : SnapWord × (Nat × Nat × Nat) × List Record :=
  (s.snap, (s.preCnt, s.perCnt, s.carCnt), s.records)

/-- The constants most timed vectors use: 2, 3, 2. -/
def small : TimerParams := ⟨1, 2, 3, 2⟩

/-- What `decode` answers, as data that can be compared. -/
def reads (w : EventWord) : Option Instr :=
  match decode w with
  | .ok i => some i
  | .error _ => none

/-- The reason `decode` refuses a word for. -/
def refuses (w : EventWord) : Option DecodeError :=
  match decode w with
  | .ok _ => none
  | .error e => some e

/-! ## WellFormed: each check refuses an ill-formed term (R63, R64, R9, R65) -/

theorem test_op_reserved_first : EventWord.opIsAssigned 0x900 = false := by decide
theorem test_op_reserved_last : EventWord.wellFormed 0xF00 = false := by decide
theorem test_op_assigned_last : EventWord.wellFormed 0x800 = true := by decide
theorem test_arg_on_nop : EventWord.argIsAllowed 0x001 = false := by decide
theorem test_arg_on_btn : EventWord.wellFormed 0x361 = false := by decide
theorem test_arg_on_ser : EventWord.wellFormed 0x4FF = true := by decide
theorem test_tick_not_untimed : Instr.tick.allowedIn .untimed = false := by decide
theorem test_matches_not_timed : Instr.pmatch.allowedIn .timed = false ∧ Instr.cmatch.allowedIn .timed = false := by decide
theorem test_nop_not_timed : Instr.nop.allowedIn .timed = false := by decide
theorem test_trace_reserved_word : admits .untimed [.word 0x100, .word 0x900] = false := by decide
theorem test_trace_pins_untimed : admits .untimed [.pins 0x0800] = false := by decide
theorem test_trace_lone_event_timed : admits .timed [.word 0x100] = false := by decide
theorem test_trace_two_events_of_a_kind_timed : admits .timed [.word 0x800, .word 0x100, .word 0x100] = false := by decide
theorem test_trace_order_timed : admits .timed [.word 0x800, .word 0x200, .word 0x100] = false := by decide
theorem test_trace_event_after_reset_timed : admits .timed [.word 0x700, .word 0x100] = false := by decide
theorem test_trace_mixed_timed : admits .timed [.word 0x800, .pins 0x0800] = false := by decide

/-! ## Decode: `op[3:0]` and `arg[7:0]` of R59 and R62 written out bit by bit -/

theorem test_decode_nop : reads 0b000000000000 = some .nop := by decide
theorem test_decode_clk : reads 0b000100000000 = some .clk := by decide
theorem test_decode_dat : reads 0b001000000000 = some .dat := by decide
theorem test_decode_btn : reads 0b001100000000 = some .btn := by decide
theorem test_decode_ser : reads 0b010001100001 = some (.ser 0b01100001) := by decide
theorem test_decode_pmatch : reads 0b010100000000 = some .pmatch := by decide
theorem test_decode_cmatch : reads 0b011000000000 = some .cmatch := by decide
theorem test_decode_rst : reads 0b011100000000 = some .rst := by decide
theorem test_decode_tick : reads 0b100000000000 = some .tick := by decide
theorem test_decode_reserved_op : refuses 0b100100000000 = some (.reservedOp 0x900) := by decide
theorem test_decode_reserved_both : refuses 0b111111111111 = some (.reservedOp 0xFFF) := by decide
theorem test_decode_reserved_arg : refuses 0b001101100001 = some (.reservedArg 0x361) := by decide
theorem test_encode_ser : encode (.ser 0x61) = 0x461 := by decide
theorem test_table_word : decodeTableWord 16 0x461 = some (.ser 0x61) := by decide
theorem test_table_word_too_wide : decodeTableWord 16 0x1100 = none := by decide
theorem test_table_rows : opcodeTable.length = 9 ∧ opcodeTable.Pairwise (fun r q => r.matchBits &&& q.maskBits ≠ q.matchBits) := by
  decide

/-! ## Reset (R38, R36, R58) -/

theorem test_reset_snap : State.reset.snap = 0x0000C1 := by decide
theorem test_reset_out : State.reset.out = 0b110001 := by decide
theorem test_reset_of_snap : snap 0x0000C1 = State.reset := by decide

/-! ## `CLK` (vectors 2.1) -/

theorem test_clk_idle : shows (exec .clk (snap 0x0000C1)) = some (0x0000F5, [.burst]) := by decide
theorem test_clk_recognizes :
    shows (exec .clk (snap 0x00FDC3)) = some (0x0070F4, [.burst, .recog]) := by decide
theorem test_clk_resolves_one : shows (exec .clk (snap 0x0115C3)) = some (0x0039F5, [.burst]) := by decide
theorem test_clk_sends_last :
    shows (exec .clk (snap 0x000E01)) = some (0x0000B5, [.burst, .sent false]) := by decide

/-! ## `DAT` (vectors 2.2) -/

theorem test_dat_starts : shows (exec .dat (snap 0x0070C0)) = some (0x0171C0, []) := by decide
theorem test_dat_saturates : shows (exec .dat (snap 0xFF01C1)) = some (0xFF01C1, []) := by decide

/-! ## `BTN`, `SER` (vectors 2.3) -/

theorem test_btn_idle : shows (exec .btn (snap 0x0000F9)) = some (0x000239, []) := by decide
theorem test_btn_receiving : shows (exec .btn (snap 0x0101C1)) = some (0x0101C1, []) := by decide
theorem test_ser_command : shows (exec (.ser 0x61) (snap 0x0000C1)) = some (0x000201, []) := by decide
theorem test_ser_other_byte : shows (exec (.ser 0xE1) (snap 0x0000C1)) = some (0x0000C1, []) := by decide
theorem test_ser_masked : shows (exec (.ser 0x61) (snap 0x000081)) = some (0x000081, []) := by decide

/-! ## `PMATCH`, `CMATCH` (vectors 2.4) -/

theorem test_pmatch_high : shows (exec .pmatch (snap 0x0000F9)) = some (0x0000C1, [.burstEnd]) := by decide
theorem test_pmatch_off : shows (exec .pmatch (snap 0x0000C1)) = some (0x0000C1, []) := by decide
theorem test_cmatch_falls : shows (exec .cmatch (snap 0x0000F9)) = some (0x0000F1, []) := by decide
theorem test_cmatch_off : shows (exec .cmatch (snap 0x0000C1)) = some (0x0000C1, []) := by decide

/-! ## `TICK` (vectors 2.5) -/

theorem test_tick_wraps :
    showsTimed (tick small (State.ofSnap 0x0000F1 1 0 1)) = (0x0000F9, (0, 1, 0), []) := by decide
theorem test_tick_ends_burst :
    showsTimed (tick ⟨1, 1, 7, 3⟩ (State.ofSnap 0x0000F5 0 6 0)) = (0x0000C5, (0, 0, 1), [.burstEnd]) := by decide
theorem test_tick_recommended :
    showsTimed (tick TimerParams.recommended (State.ofSnap 0x0000F1 3 914 5)) = (0x0000C1, (0, 0, 6), [.burstEnd]) := by
  decide

/-! ## `NOP`, `RST` (vectors 2.6) -/

theorem test_nop : shows (exec .nop (snap 0x00063D)) = some (0x00063D, []) := by decide
theorem test_rst : shows (exec .rst (snap 0xFF7FFE)) = some (0x0000C1, []) := by decide
theorem test_rst_keeps_records :
    shows (exec .rst { snap 0x00063D with records := [.burst] }) = some (0x0000C1, [.burst]) := by decide

/-! ## Pin vectors and the cycle (vectors 2.8, 2.11) -/

theorem test_expand_all : expandPins 0x0F61 = [.tick, .clk, .dat, .btn, .ser 0x61] := by decide
theorem test_expand_reset : expandPins 0x1FFF = [.rst] := by decide
theorem test_expand_byte_ignored : expandPins 0x0061 = [.tick] := by decide
theorem test_cycle_all_at_once :
    showsTimed (cycle small 0x0F61 State.reset) = (0x0101F5, (0, 0, 0), [.burst]) := by decide
theorem test_cycle_clk_at_burst_end :
    showsTimed (cycle small 0x0800 (State.ofSnap 0x0000F1 1 2 1)) = (0x0000F5, (0, 0, 0), [.burstEnd, .burst]) := by
  decide
theorem test_cycle_last_send_with_dat :
    showsTimed (cycle small 0x0C00 (snap 0x000E01)) = (0x0101B5, (0, 0, 0), [.burst, .sent false]) := by decide

/-! ## The step (R50, R63, R64) -/

theorem test_step_word : shows (step (State.reset.withFetchWord 12 0x461)) = some (0x000201, []) := by decide
theorem test_step_two_words :
    shows (Host.Core.run core 2 ({ State.reset with input := [.word 0x100, .word 0x500] } : State)) =
      some (0x0000C5, [.burst, .burstEnd]) := by decide
theorem test_step_reserved_op : step (State.reset.withFetchWord 16 0x900) = .refused (.reservedOp 0x900) := by rfl
theorem test_step_reserved_arg : step (State.reset.withFetchWord 16 0x101) = .refused (.reservedArg 0x101) := by rfl
theorem test_step_nothing_delivered : step State.reset = .next State.reset := by rfl

/-! ## The recommended constants (92_eei_decisions.md D24, R97, R98, R6) -/

theorem test_recommended_burst : TimerParams.recommended.burstCycles = 3660 := by decide
theorem test_recommended_rate : TimerParams.recommended.togglesPerSecond = 204800 := by
  norm_num [TimerParams.togglesPerSecond, TimerParams.recommended]
theorem test_width_of_one_value : TimerParams.counterWidth 1 = 0 := by decide
theorem test_width_of_four_values : TimerParams.counterWidth 4 = 2 := by decide

/-! ## Trace text (R67) -/

theorem test_line_ser : operationLine (.ser 0x61) = "SER 0x61".toList := by decide
theorem test_read_quoted : readOperation "SER 'a'".toList = some (.ser 0x61) := by decide
theorem test_read_comment : readOperation "CLK ; one bit period".toList = some .clk := by decide
/-- The model's choice and no rule of the spec (notes/assumptions/16.md). -/
theorem test_read_quoted_semicolon : readOperation "SER ';'".toList = none := by decide
theorem test_read_pins : readPins "IN=0x0800".toList = some 0x0800 := by decide
theorem test_read_pins_too_wide : readPins "IN=0x2000".toList = none := by decide
theorem test_state_text : (snap 0x0070C0).text = "0070C0".toList := by decide

/-! ## Witnesses: states and operands that meet the hypotheses of each statement that has some

Each clause has its own; where a range has an end, the witness stands at it. -/

theorem witness_EachOperationHasOneWord : encode .tick = 0x800 ∧ reads 0x800 = some .tick := by decide

theorem witness_ReservedOpcodesAreRefused :
    (State.reset.withFetchWord 12 0x900).input = .word 0x900 :: [] ∧ (0x900 : EventWord) ≤ 0x900 := by decide

theorem witness_NonzeroArgumentsAreRefused :
    (State.reset.withFetchWord 12 0x801).input = .word 0x801 :: [] ∧ (0x801 : EventWord) < 0x900 ∧
    (0x801 : EventWord).extractLsb' 8 4 ≠ 0x4 ∧ (0x801 : EventWord).extractLsb' 0 8 ≠ (0 : Byte) ∧
    (0x60 : Byte) ≠ 0x61 ∧ reads 0x4FF = some (.ser 0xFF) := by decide

theorem witness_StepRunsTheDeliveredOperation :
    State.reset.input = [] ∧
    (State.reset.withFetchWord 12 0x4FF).input = .word (encode (.ser 0xFF)) :: [] ∧
    ({ State.reset with input := [.pins 0x1FFF] } : State).input = .pins 0x1FFF :: [] := by decide

theorem witness_AdmittedTracesRunToTheEnd :
    (∀ x ∈ [Input.word 0x4FF, .pins 0x1FFF], x.isPins = true ∨ x.operation.isSome = true) ∧
    admits .untimed [.word 0x100, .word 0x500] = true ∧ admits .timed [.pins 0x0800, .pins 0x1FFF] = true ∧
    admits .timed [.word 0x800, .word 0x100, .word 0x461, .word 0x700, .word 0x800] = true := by decide

theorem witness_TimedWordTracesAreCycles :
    (∀ x ∈ [Input.word 0x800, .word 0x100], x.isPins = false) ∧
    [Input.word 0x800, .word 0x100] = ([(0x0800 : PinVector)].flatMap expandPins).map (fun i => .word (encode i)) ∧
    (Input.pins 0x0800 ∈ [Input.pins 0x0800, .pins 0]) := by decide

theorem witness_ReservedWordsHaveNoNextState :
    (State.reset.withFetchWord 12 0x901).input = .word 0x901 :: [] ∧
    (0x9 : BitVec 4) ≤ (0x901 : EventWord).extractLsb' 8 4 := by decide

theorem witness_NopIsTheEmptyEvent : State.reset.perEn = false ∧ State.reset.carEn = false := by decide

/-- A state for each of the six clauses, in their order. -/
theorem witness_ClockEdgeEffect :
    ((snap 0x0000C1).rcv = false ∧ (snap 0x0000C1).snd = false) ∧
    ((snap 0x0039C1).rcv = true ∧ (snap 0x0039C1).pos ≠ 3) ∧
    ((snap 0x003DC3).rcv = true ∧ (snap 0x003DC3).pos = 3 ∧
      ¬((snap 0x003DC3).frame.b0 = true ∧ (snap 0x003DC3).frame.b1 = true ∧ (snap 0x003DC3).frame.b2 = true ∧
        (snap 0x003DC3).acc = 0)) ∧
    ((snap 0x007DC3).rcv = true ∧ (snap 0x007DC3).pos = 3 ∧ (snap 0x007DC3).frame.b0 = true ∧
      (snap 0x007DC3).frame.b1 = true ∧ (snap 0x007DC3).frame.b2 = true ∧ (snap 0x007DC3).acc = 0) ∧
    ((snap 0x000A01).rcv = false ∧ (snap 0x000A01).snd = true ∧ (snap 0x000A01).pos ≠ 3) ∧
    ((snap 0x000E01).rcv = false ∧ (snap 0x000E01).snd = true ∧ (snap 0x000E01).pos = 3) := by decide

theorem witness_DataEdgeEffect :
    (snap 0x000201).datEn = false ∧ (snap 0xFF01C1).datEn = true ∧ (snap 0xFF01C1).acc = 255 := by decide

theorem witness_SendRequestEffect :
    ((snap 0x0000C1).serEn = true ∧ (snap 0x0000C1).rcv = false ∧ (snap 0x0000C1).snd = false) ∧
    (snap 0x0101C1).rcv = true ∧ (snap 0x000601).snd = true ∧ (snap 0x000081).serEn = false ∧
    (0x62 : Byte) ≠ 0x61 := by decide

theorem witness_ArmEnablesBothSources : (snap 0x0000F1).perEn = true ∧ (snap 0x0000F1).carEn = true := by decide

theorem witness_PeriodMatchEffect :
    (snap 0x0000F9).perEn = true ∧ (snap 0x0000C1).perEn = false ∧
    exec .pmatch (snap 0x0000F9) = .next { snap 0x0000C1 with records := [.burstEnd] } ∧
    (snap 0x0000F9).carEn = true ∧ (snap 0x0000C1).carEn = false := by
  refine ⟨?_, ?_, rfl, ?_, ?_⟩ <;> decide

theorem witness_CarrierMatchEffect : (snap 0x0000F1).carEn = true ∧ (snap 0x0000C1).carEn = false := by decide

theorem witness_ResetEffect :
    Instr.clk ≠ .rst ∧ exec .clk State.reset = .next { snap 0x0000F5 with records := [.burst] } ∧
    (snap 0x0000F5).serEn = true ∧ (snap 0x0000F5).recogN = true := by
  refine ⟨?_, rfl, ?_, ?_⟩ <;> decide

theorem witness_MaskedEventsLeaveNoTrace :
    (snap 0x000201).datEn = false ∧ (snap 0x000081).serEn = false ∧ (snap 0x0000C1).perEn = false ∧
    (snap 0x0000C1).carEn = false ∧ (0 : Byte) ≠ 0x61 ∧ (snap 0x0000F1).perEn = true ∧ (snap 0x0000F1).carEn = true := by
  decide

theorem witness_HeldResetOverridesEverything :
    ∀ u ∈ (0x1FFF : PinVector) :: [0x1000, 0x1800], u.getLsbD 12 = true := by decide

theorem witness_UnusedPinsAreIgnored :
    ((0x1FFF : PinVector).getLsbD 12 = true ∧ (0x1000 : PinVector).getLsbD 12 = true) ∧
    ((0x0861 : PinVector).getLsbD 8 = false ∧
      (0x0861 : PinVector).extractLsb' 8 5 = (0x08FF : PinVector).extractLsb' 8 5) := by decide

/-- The reset state satisfies the invariants with any constants, and so does the state after a first data edge. -/
theorem inv_of_reset_and_input (p : TimerParams) (rest : List Input) : ({ State.reset with input := rest } : State).Inv p := by
  constructor <;> first | exact p.prescale.pos | exact p.periodTarget.pos | exact p.carrierTarget.pos |
    simp [State.reset, State.inMode]

theorem witness_StepKeepsTheInvariants :
    ∃ s t : State, s.Inv Config.timer ∧ step s = .next t ∧ t.snap = 0x0000F5 :=
  ⟨{ State.reset with input := [.word 0x100] }, { snap 0x0000F5 with records := [.burst] },
    inv_of_reset_and_input _ _, rfl, by decide⟩

/-- The three counters at the last value of their ranges (recommended constants). -/
theorem witness_CountersFitTheirWidths : (State.ofSnap 0x0000F1 3 914 17).Inv TimerParams.recommended := by
  constructor <;> first | decide | (unfold State.inMode; decide)

theorem witness_ModeTransitions :
    (snap 0x0000C1).Inv small ∧ (snap 0x0101C1).Inv small ∧ (snap 0x000E01).Inv small ∧
    (snap 0x0000C1).inMode .idle ∧ (snap 0x0101C1).inMode .receiving ∧ (snap 0x000E01).inMode .sending := by
  refine ⟨?_, ?_, ?_, ⟨by decide, by decide⟩, ⟨by decide, by decide⟩, ⟨by decide, by decide⟩⟩ <;> constructor <;>
    first | decide | (unfold State.inMode; decide)

theorem witness_WhoWritesWhat :
    exec .clk (snap 0x007DC3) = .next { snap 0x0070F4 with records := [.burst, .recog] } ∧
    exec .btn (snap 0x0000C1) = .next (snap 0x000201) ∧
    exec .pmatch (snap 0x0000F9) = .next { snap 0x0000C1 with records := [.burstEnd] } ∧
    exec .cmatch (snap 0x0000F9) = .next (snap 0x0000F1) ∧
    exec .rst (snap 0x00063D) = .next (snap 0x0000C1) := by
  refine ⟨?_, ?_, ?_, ?_, ?_⟩ <;> rfl

theorem witness_EveryClockEdgeArmsOnce : (snap 0x0000F1).perEn = true ∧ (snap 0x0000C1).perEn = false := by decide

theorem witness_IdempotentOperations :
    exec .btn (snap 0x0000C1) = .next (snap 0x000201) ∧ exec (.ser 0x61) (snap 0x0000C1) = .next (snap 0x000201) ∧
    exec .pmatch (snap 0x0000F9) = .next { snap 0x0000C1 with records := [.burstEnd] } := by
  refine ⟨?_, ?_, ?_⟩ <;> rfl

theorem witness_RecognitionAndClosedPathAreSticky :
    (∀ i ∈ [Instr.dat, .clk, .btn, .ser 0x61, .tick], i ≠ .rst) ∧ (snap 0x000080).recogN = false ∧
    (snap 0x000080).serEn = false := by decide

theorem witness_SerialPathTellsOfASend :
    (snap 0x0000C1).serEn = true ∧ (snap 0x0000C1).snd = false ∧ (∀ i ∈ [Instr.nop, .btn], i ≠ .rst) ∧
    runOps [.nop, .btn] (snap 0x0000C1) = .next (snap 0x000201) := by
  refine ⟨?_, ?_, ?_, rfl⟩ <;> decide

theorem witness_StalledProtocolStaysStalled :
    (∀ i ∈ [Instr.dat, .nop, .pmatch, .cmatch, .btn, .ser 0x61, .tick], i ≠ .clk ∧ i ≠ .rst) ∧
    (snap 0x0101C1).inMode .receiving ∧ (snap 0x0101C1).datEn = true ∧
    (snap 0x000601).inMode .sending ∧ (snap 0x000601).datEn = false :=
  ⟨by decide, ⟨by decide, by decide⟩, by decide, ⟨by decide, by decide⟩, by decide⟩

theorem witness_ReceiveAssemblesTheFrame :
    (snap 0x0000C1).inMode .idle ∧ (snap 0x0000C1).datEn = true ∧
    (∀ i ∈ [Instr.pmatch] ++ [.dat] ++ [.dat, .btn] ++ [], i ≠ .clk ∧ i ≠ .rst) :=
  ⟨⟨by decide, by decide⟩, by decide, by decide⟩

theorem witness_OnlyTheStartCodeIsRecognized :
    (snap 0x0000C1).inMode .idle ∧ (snap 0x0000C1).datEn = true ∧ (snap 0x0000C1).recogN = true :=
  ⟨⟨by decide, by decide⟩, by decide, by decide⟩

theorem witness_SendPresentsTheStartCode :
    (snap 0x0000C1).inMode .idle ∧ (snap 0x0000C1).serEn = true ∧ (snap 0x000081).inMode .idle ∧
    (∀ i ∈ [Instr.btn] ++ [.pmatch] ++ [.cmatch, .dat] ++ [.ser 0x61], i ≠ .clk ∧ i ≠ .rst) :=
  ⟨⟨by decide, by decide⟩, by decide, ⟨by decide, by decide⟩, by decide⟩

theorem witness_IdleFrameIsUnobservable : State.reset.Inv Config.timer ∧ State.reset.inMode .idle :=
  ⟨inv_of_reset_and_input _ _, ⟨by decide, by decide⟩⟩

theorem witness_OnlyZeroOrNotOfTheAccumulatorMatters :
    ((0xFF : Byte) = 0 ↔ (snap 0x0101C1).acc = 0) ∧ ((0 : Byte) = 0 ↔ (snap 0x0000C1).acc = 0) := by decide

theorem witness_IdleIsStable : (State.ofSnap 0x0000C1 0 0 1).perEn = false ∧ (State.ofSnap 0x0000C1 0 0 1).carEn = false := by
  decide

/-- With five cycles after the arming one, the last before the burst of six ends. -/
theorem witness_BurstRunsUndisturbed :
    State.reset.perEn = false ∧ State.reset.carEn = false ∧ State.reset.tx = false ∧
    (0x0800 : PinVector).getLsbD 12 = false ∧ (0x0800 : PinVector).getLsbD 11 = true ∧
    (∀ u ∈ [(0 : PinVector), 0x0C00, 0, 0x0800, 0x0361], u.getLsbD 12 = false) ∧
    [(0 : PinVector), 0x0C00, 0, 0x0800, 0x0361].length < small.burstCycles := by decide

/-- With the shortest burst there is, one cycle, and with the burst of six. -/
theorem witness_BurstEndsOnTime :
    State.reset.perEn = false ∧ State.reset.carEn = false ∧ State.reset.tx = false ∧
    (0x0800 : PinVector).getLsbD 12 = false ∧ (0x0800 : PinVector).getLsbD 11 = true ∧
    (0 : PinVector).getLsbD 12 = false ∧ (0 : PinVector).getLsbD 11 = false ∧
    ([] : List PinVector).length + 1 = (⟨1, 1, 1, 1⟩ : TimerParams).burstCycles ∧
    (∀ u ∈ [(0 : PinVector), 0x0C00, 0, 0x0800, 0x0361], u.getLsbD 12 = false) ∧
    [(0 : PinVector), 0x0C00, 0, 0x0800, 0x0361].length + 1 = small.burstCycles := by decide

theorem witness_FairUntimedBurstsEnd :
    fairRun (fun _ => .pmatch) (snap 0x0000F1) ∧ (stateAt (fun _ => .pmatch) (snap 0x0000F1) 0).perEn = true :=
  ⟨fun n _ => ⟨n, le_refl n, rfl⟩, by decide⟩

/-- Both clauses: at the first cycle of a burst of six, and at the last, also of a burst of one. -/
theorem witness_EveryCycleAdvancesTheBurst :
    (State.ofSnap 0x0000F5 0 0 0).BurstAt small 0 ∧ 0 + 1 < small.burstCycles ∧
    (State.ofSnap 0x0000F5 1 2 1).BurstAt small 5 ∧ 5 + 1 = small.burstCycles ∧
    (snap 0x0000F5).BurstAt ⟨1, 1, 1, 1⟩ 0 ∧ 0 + 1 = (⟨1, 1, 1, 1⟩ : TimerParams).burstCycles ∧
    (0x0F61 : PinVector).getLsbD 12 = false ∧ (0x0F61 : PinVector).getLsbD 11 = true ∧
    (0x0400 : PinVector).getLsbD 11 = false := by
  refine ⟨?_, ?_, ?_, ?_, ?_, ?_, ?_, ?_, ?_⟩ <;> first | decide | (constructor <;> decide)

/-- The state right after arming is at cycle 0 of a burst, whatever the timer constants. -/
theorem burstAt_zero (p : TimerParams) (rest : List Input) : ({ snap 0x0000F5 with input := rest } : State).BurstAt p 0 := by
  constructor <;> simp [snap, State.ofSnap]

theorem witness_StepsKeepBurstsOnTime :
    ({ snap 0x0000F5 with input := [.pins 0x0800] } : State).BurstOnTime Config.timer ∧
    (∃ t, step { snap 0x0000F5 with input := [.pins 0x0800] } = .next t) ∧
    (∃ t, step { snap 0x0000F5 with input := [.word (encode .clk)] } = .next t) ∧
    (∀ rest, [Input.pins 0x0800] ≠ .word (encode .cmatch) :: rest) ∧
    ({ snap 0x0000F5 with input := [.word (encode .clk)] } : State).BurstAt Config.timer 0 ∧
    Instr.clk ≠ .rst ∧ Instr.clk ≠ .tick ∧ Instr.clk ≠ .pmatch ∧ Instr.clk ≠ .cmatch :=
  ⟨.inr ⟨0, Nat.mul_pos Config.timer.prescale.pos Config.timer.periodTarget.pos, burstAt_zero _ _⟩, ⟨_, rfl⟩, ⟨_, rfl⟩,
    fun _ h => by simp at h, burstAt_zero _ _, by decide, by decide, by decide, by decide⟩

/-- In Idle with any frame, and in Receiving at position 1 with frames that agree on element 0. -/
theorem witness_StepsKeepUnreadFrameUnobservable (rest : List Input) :
    ({ State.reset with input := rest } : State).Inv Config.timer ∧
    AgreeOnReadFrame { State.reset with input := rest } { State.reset with input := rest, frame := startCode } ∧
    AgreeOnReadFrame (snap 0x0115C3) { snap 0x0115C3 with frame := ⟨true, true, true, true⟩ } ∧
    (∃ t, step { State.reset with input := [.word 0x200] } = .next t) ∧
    (∃ r, step { State.reset with input := [.word 0x900] } = .refused r) := by
  refine ⟨inv_of_reset_and_input _ _, ⟨rfl, ?_⟩, ⟨rfl, ?_⟩, ⟨_, rfl⟩, ⟨_, rfl⟩⟩
  · intro h; cases h
  · decide

end Sys2Proof.Tests
end

section
/-! PROOF. The packed words of the state (10_state.md R36, 30_encoding.md R58): each item is read back from its own bits of
`SNAP`, and both directions of packing follow. -/

namespace Sys2Proof.Machine

/-! ### Bit vectors built by appending single bits -/

theorem ofBool_getLsbD {w : Nat} (x : BitVec w) (i : Nat) : BitVec.ofBool (x.getLsbD i) = x.extractLsb' i 1 := by
  ext j hj
  obtain rfl : j = 0 := by omega
  simp

theorem extractLsb'_append_ofBool_getLsbD {w : Nat} (x : BitVec w) (i len : Nat) :
    x.extractLsb' (i + 1) len ++ BitVec.ofBool (x.getLsbD i) = x.extractLsb' i (len + 1) := by
  rw [ofBool_getLsbD, BitVec.extractLsb'_append_extractLsb'_eq_extractLsb' rfl]

theorem extractLsb'_succ_append_ofBool {w : Nat} (x : BitVec w) (b : Bool) (i len : Nat) :
    (x ++ BitVec.ofBool b).extractLsb' (i + 1) len = x.extractLsb' i len :=
  BitVec.extractLsb'_append_eq_of_le (Nat.le_add_left 1 i)

/-! ### The frame as four bits (R42) -/

@[simp] theorem Frame.getLsbD_toBits (f : Frame) (i : BitIndex) : f.toBits.getLsbD i = f.get i := by
  have hconcat : f.toBits = (((BitVec.ofBool f.b3).concat f.b2).concat f.b1).concat f.b0 := by
    simp only [Frame.toBits, BitVec.append_ofBool]
  rw [hconcat]
  fin_cases i <;> simp [Frame.get]

@[simp] theorem Frame.ofBits_toBits (f : Frame) : Frame.ofBits f.toBits = f :=
  Frame.ext (f.getLsbD_toBits 0) (f.getLsbD_toBits 1) (f.getLsbD_toBits 2) (f.getLsbD_toBits 3)

@[simp] theorem Frame.toBits_ofBits (w : BitVec 4) : (Frame.ofBits w).toBits = w := by
  simp only [Frame.toBits, Frame.ofBits, ofBool_getLsbD w 3, extractLsb'_append_ofBool_getLsbD]
  exact BitVec.extractLsb'_eq_self

/-! ### Where each item stands in `SNAP` (R36) -/

/-- Above its ten single bits, `SNAP` is `ACC`, `FRAME` and `POS`. -/
theorem State.snap_extractLsb'_high (s : State) (i len : Nat) :
    s.snap.extractLsb' (i + 10) len = (s.acc ++ s.frame.toBits ++ BitVec.ofFin (w := 2) s.pos).extractLsb' i len := by
  simp only [State.snap, extractLsb'_succ_append_ofBool]

@[simp] theorem State.snap_acc (s : State) : s.snap.extractLsb' 16 8 = s.acc := by
  rw [s.snap_extractLsb'_high 6, BitVec.extractLsb'_append_eq_of_le (by decide), BitVec.extractLsb'_append_eq_left]

@[simp] theorem State.snap_frame (s : State) : s.snap.extractLsb' 12 4 = s.frame.toBits := by
  rw [s.snap_extractLsb'_high 2, BitVec.extractLsb'_append_eq_of_le (by decide), BitVec.extractLsb'_append_eq_right]

@[simp] theorem State.snap_pos (s : State) : s.snap.extractLsb' 10 2 = BitVec.ofFin s.pos := by
  rw [s.snap_extractLsb'_high 0, BitVec.extractLsb'_append_eq_right]

theorem State.snap_frame_get (s : State) (i : BitIndex) : s.snap.getLsbD (12 + i) = s.frame.get i := by
  rw [← Frame.getLsbD_toBits, ← s.snap_frame, BitVec.getLsbD_extractLsb', decide_eq_true i.isLt, Bool.true_and]

/-- The ten single bits of `SNAP`, highest first. -/
theorem State.snap_flags (s : State) :
    s.snap.getLsbD 9 = s.snd ∧ s.snap.getLsbD 8 = s.rcv ∧ s.snap.getLsbD 7 = s.datEn ∧ s.snap.getLsbD 6 = s.serEn ∧
    s.snap.getLsbD 5 = s.perEn ∧ s.snap.getLsbD 4 = s.carEn ∧ s.snap.getLsbD 3 = s.tx ∧ s.snap.getLsbD 2 = s.hb ∧
    s.snap.getLsbD 1 = s.prog ∧ s.snap.getLsbD 0 = s.recogN := by
  simp only [State.snap, BitVec.append_ofBool, BitVec.getLsbD_concat_zero, BitVec.getLsbD_concat_succ, and_self]

/-! ### Packing and unpacking (R36) -/

theorem State.ofSnap_snap (s : State) :
    { State.ofSnap s.snap s.preCnt s.perCnt s.carCnt with input := s.input, records := s.records } = s := by
  obtain ⟨hsnd, hrcv, hdat, hser, hper, hcar, htx, hhb, hprog, hrecog⟩ := s.snap_flags
  simp only [State.ofSnap, s.snap_acc, s.snap_frame, s.snap_pos, Frame.ofBits_toBits,
    hsnd, hrcv, hdat, hser, hper, hcar, htx, hhb, hprog, hrecog]

theorem State.snap_ofSnap (w : SnapWord) (a b c : Nat) : (State.ofSnap w a b c).snap = w := by
  have hhigh : w.extractLsb' 16 8 ++ w.extractLsb' 12 4 ++ w.extractLsb' 10 2 = w.extractLsb' 10 14 := by
    rw [BitVec.extractLsb'_append_extractLsb'_eq_extractLsb' (show 16 = 12 + 4 from rfl),
      BitVec.extractLsb'_append_extractLsb'_eq_extractLsb' (show 12 = 10 + 2 from rfl)]
  simp only [State.snap, State.ofSnap, Frame.toBits_ofBits, BitVec.ofFin_toFin, hhigh, extractLsb'_append_ofBool_getLsbD]
  exact BitVec.extractLsb'_eq_self

/-- The output pins show `SNAP[7:6]` and `SNAP[3:0]` (R36, R58). -/
theorem State.out_eq_snap (s : State) : s.out = s.snap.extractLsb' 6 2 ++ s.snap.extractLsb' 0 4 := by
  obtain ⟨-, -, hdat, hser, -, -, htx, hhb, hprog, hrecog⟩ := s.snap_flags
  have hhigh : s.snap.extractLsb' 6 2 = BitVec.ofBool s.datEn ++ BitVec.ofBool s.serEn := by
    rw [← hdat, ← hser, ofBool_getLsbD _ 7, extractLsb'_append_ofBool_getLsbD]
  have hlow : s.snap.extractLsb' 0 4 =
      BitVec.ofBool s.tx ++ BitVec.ofBool s.hb ++ BitVec.ofBool s.prog ++ BitVec.ofBool s.recogN := by
    simp only [← htx, ← hhb, ← hprog, ← hrecog, ofBool_getLsbD _ 3, extractLsb'_append_ofBool_getLsbD]
  rw [State.out, hhigh, hlow, BitVec.append_assoc', BitVec.append_assoc', BitVec.append_assoc']
  rfl

/-- Settles O26: the fields of `SNAP` are read off its layout lemmas, and unpacking and packing are inverse to each other. -/
theorem snapshotWord : Obligations.SnapshotWord := by
  unfold Obligations.SnapshotWord
  refine ⟨fun s => ?_, State.snap_ofSnap, by decide⟩
  obtain ⟨hsnd, hrcv, hdat, hser, hper, hcar, htx, hhb, hprog, hrecog⟩ := s.snap_flags
  exact ⟨s.snap_acc, s.snap_frame_get, s.snap_pos, hsnd, hrcv, hdat, hser, hper, hcar, htx, hhb, hprog, hrecog,
    s.out_eq_snap, s.ofSnap_snap⟩

theorem State.reset_inMode_idle : State.reset.inMode .idle := ⟨rfl, rfl⟩

/-- Settles O22: `State.reset` is one fixed state, so each item is read from it (R38). -/
theorem stateAfterReset : Obligations.StateAfterReset := by
  unfold Obligations.StateAfterReset
  exact ⟨rfl, rfl, rfl, State.reset_inMode_idle, rfl, rfl, rfl, rfl, rfl, rfl, rfl, rfl, rfl, rfl, rfl⟩

end Sys2Proof.Machine
end

section
/-! PROOF. Frame equality (20_memory.md R54): a frame is determined by its four elements, so equality of frames is
agreement at each index. -/

namespace Sys2Proof.Machine

/-- A frame has no content beyond its four elements (R11). -/
theorem Frame.eq_iff_get (f g : Frame) : f = g ↔ ∀ i : BitIndex, f.get i = g.get i := by
  constructor
  · rintro rfl i
    rfl
  · intro h
    exact Frame.ext (h 0) (h 1) (h 2) (h 3)

theorem Frame.equals_iff_get (f g : Frame) : f.equals g = true ↔ ∀ i : BitIndex, f.get i = g.get i :=
  (f.equals_iff_eq g).trans (f.eq_iff_get g)

/-- The start code spelled out, element 0 first (R26). -/
theorem Frame.equals_startCode_iff (f : Frame) :
    f.equals startCode = true ↔ f.get 0 = true ∧ f.get 1 = true ∧ f.get 2 = true ∧ f.get 3 = false := by
  rw [Frame.equals_iff_eq, Frame.ext_iff]
  rfl

/-- Settles O23: the general comparison by extensionality of frames, then its instance at the start code (R54). -/
theorem frameEqualityIsPairwise : Obligations.FrameEqualityIsPairwise := by
  unfold Obligations.FrameEqualityIsPairwise
  exact ⟨Frame.equals_iff_get, Frame.equals_startCode_iff⟩

end Sys2Proof.Machine
end

section
/-! PROOF. The decoder (30_encoding.md R59, R62 to R64, R69): a word is its two fields, `decode` answers an operation exactly on
that operation's word, and the refusals are read off the fields. -/

namespace Sys2Proof

/-! ### The two fields of an event word (R59) -/

theorem EventWord.opField_append_argField (w : EventWord) : w.opField ++ w.argField = w := by
  rw [EventWord.opField, EventWord.argField, BitVec.extractLsb'_append_extractLsb'_eq_extractLsb' (show 8 = 0 + 8 from rfl)]
  exact BitVec.extractLsb'_eq_self

theorem EventWord.opField_toNat (w : EventWord) : w.opField.toNat = w.toNat / 256 := by
  rw [EventWord.opField, BitVec.extractLsb'_toNat, Nat.shiftRight_eq_div_pow]
  have := w.isLt
  omega

/-- The operand is masked out by the mask of `SER`'s row (R62). -/
theorem EventWord.and_opMask (w : EventWord) : w &&& 0xF00 = w.opField ++ (0 : Byte) := by
  have hmask : (0xF00 : EventWord) = BitVec.allOnes 4 ++ (0 : Byte) := by decide
  calc w &&& 0xF00
      = (w.opField ++ w.argField) &&& (BitVec.allOnes 4 ++ (0 : Byte)) := by rw [w.opField_append_argField, hmask]
    _ = w.opField ++ (0 : Byte) := by
      rw [BitVec.and_append, BitVec.and_allOnes, show w.argField &&& 0 = 0 from BitVec.and_zero]

@[simp] theorem opField_encode (i : Instr) : EventWord.opField (encode i) = i.opcode :=
  BitVec.extractLsb'_append_eq_left

@[simp] theorem argField_encode (i : Instr) : EventWord.argField (encode i) = i.argument :=
  BitVec.extractLsb'_append_eq_right

/-! ### What `decode` answers (R69) -/

theorem decode_of_fields {w : EventWord} {i : Instr} (hop : w.opField = i.opcode) (harg : w.argField = i.argument) :
    decode w = .ok i := by
  cases i <;> simp [decode, hop, harg, Instr.opcode, Instr.argument]

/-- The inversion of `decode`: an answered operation has the word's fields as its opcode and its operand. -/
theorem fields_of_decode {w : EventWord} {i : Instr} (h : decode w = .ok i) :
    w.opField = i.opcode ∧ w.argField = i.argument := by
  unfold decode at h
  split_ifs at h with hser hres harg hnop hclk hdat hbtn hpmatch hcmatch hrst <;> cases h
  · exact ⟨hser, rfl⟩
  · exact ⟨hnop, not_not.1 harg⟩
  · exact ⟨hclk, not_not.1 harg⟩
  · exact ⟨hdat, not_not.1 harg⟩
  · exact ⟨hbtn, not_not.1 harg⟩
  · exact ⟨hpmatch, not_not.1 harg⟩
  · exact ⟨hcmatch, not_not.1 harg⟩
  · exact ⟨hrst, not_not.1 harg⟩
  · have htick : w.opField = 0x8 := by bv_omega
    exact ⟨htick, not_not.1 harg⟩

@[simp] theorem decode_encode (i : Instr) : decode (encode i) = .ok i :=
  decode_of_fields (opField_encode i) (argField_encode i)

theorem encode_of_decode {w : EventWord} {i : Instr} (h : decode w = .ok i) : encode i = w := by
  obtain ⟨hop, harg⟩ := fields_of_decode h
  rw [encode, ← hop, ← harg, w.opField_append_argField]

theorem decode_eq_ok_iff (w : EventWord) (i : Instr) : decode w = .ok i ↔ w = encode i :=
  ⟨fun h => (encode_of_decode h).symm, fun h => h ▸ decode_encode i⟩

/-- Under the mask of a row without operand, a word is compared whole (R62). -/
theorem decode_eq_ok_iff_fullMask (w : EventWord) (i : Instr) : decode w = .ok i ↔ w &&& 0xFFF = encode i := by
  rw [decode_eq_ok_iff, show (0xFFF : EventWord) = BitVec.allOnes 12 from rfl, BitVec.and_allOnes]

theorem decode_eq_ser_iff (w : EventWord) (b : Byte) :
    decode w = .ok (.ser b) ↔ w &&& 0xF00 = 0x400 ∧ b = w.argField := by
  have hmatch : (0x400 : EventWord) = (0x4 : BitVec 4) ++ (0 : Byte) := by decide
  rw [w.and_opMask, hmatch, BitVec.append_left_inj]
  constructor
  · intro h
    obtain ⟨hop, harg⟩ := fields_of_decode h
    exact ⟨hop, harg.symm⟩
  · rintro ⟨hop, rfl⟩
    exact decode_of_fields hop rfl

/-- R63. -/
theorem decode_of_reservedOp {w : EventWord} (h : 0x9 ≤ w.opField) : decode w = .error (.reservedOp w) := by
  have hser : w.opField ≠ 0x4 := fun e => absurd (e ▸ h) (by decide)
  rw [decode, if_neg hser, if_pos h]

/-- R64. -/
theorem decode_of_reservedArg {w : EventWord} (hop : ¬0x9 ≤ w.opField) (hser : w.opField ≠ 0x4) (harg : w.argField ≠ 0) :
    decode w = .error (.reservedArg w) := by
  rw [decode, if_neg hser, if_neg hop, if_pos harg]

theorem EventWord.nine_le_opField_iff (w : EventWord) : 0x9 ≤ w.opField ↔ 0x900 ≤ w := by
  rw [BitVec.le_def, BitVec.le_def, w.opField_toNat]
  exact Nat.le_div_iff_mul_le (by decide)

/-- Settles O2: an operation is answered exactly on its word; the row of `SER` leaves the operand open (R62). -/
theorem decodeFollowsTheOpcodeTable : Obligations.DecodeFollowsTheOpcodeTable := by
  unfold Obligations.DecodeFollowsTheOpcodeTable
  intro w
  have hrow := decode_eq_ok_iff_fullMask w
  exact ⟨hrow .nop, hrow .clk, hrow .dat, hrow .btn, decode_eq_ser_iff w, hrow .pmatch, hrow .cmatch, hrow .rst,
    hrow .tick⟩

namespace Machine

/-- R82: any byte but the command byte. -/
theorem ser_of_ne_cmdByte {b : Byte} (h : b ≠ cmdByte) (s : State) : ser b s = s := by
  simp [ser, h]

/-- Settles O5: the refusal by the word's fields, and the rest by the round trips of `decode` and `encode` (R64). -/
theorem nonzeroArgumentsAreRefused : Obligations.NonzeroArgumentsAreRefused := by
  unfold Obligations.NonzeroArgumentsAreRefused
  refine ⟨fun s w rest hin hlt hser harg => ?_, fun b => decode_encode (.ser b), fun b s hb => ?_,
    fun w i => encode_of_decode⟩
  · have hop : ¬0x9 ≤ w.opField := by rwa [w.nine_le_opField_iff, BitVec.not_le]
    exact step_refused hin (decode_of_reservedArg hop hser harg)
  · rw [exec_eq_after, after, ser_of_ne_cmdByte hb]

/-- Settles O50: `decode` refuses the word by its `op` alone, and a refused step answers no state (R63). -/
theorem reservedWordsHaveNoNextState : Obligations.ReservedWordsHaveNoNextState := by
  unfold Obligations.ReservedWordsHaveNoNextState
  intro s w rest hin hop
  have hstep := step_refused hin (decode_of_reservedOp hop)
  refine ⟨⟨_, hstep⟩, fun t ht => ?_⟩
  rw [hstep] at ht
  cases ht

end Machine

end Sys2Proof
end

section
/-! PROOF. The pin vectors (30_encoding.md R57, R58): the bits of the output vector, and the cycle as the operations of
its input vector. -/

namespace Sys2Proof.Machine

/-! ### The output pin vector (R58) -/

/-- The six bits of `OUT`, highest first. -/
theorem State.out_bits (s : State) :
    s.out.getLsbD 5 = s.datEn ∧ s.out.getLsbD 4 = s.serEn ∧ s.out.getLsbD 3 = s.tx ∧ s.out.getLsbD 2 = s.hb ∧
    s.out.getLsbD 1 = s.prog ∧ s.out.getLsbD 0 = s.recogN := by
  simp [State.out, BitVec.append_ofBool]

theorem State.out_extractLsb'_low (s : State) : s.out.extractLsb' 0 4 = s.snap.extractLsb' 0 4 := by
  rw [s.out_eq_snap]
  exact BitVec.extractLsb'_append_eq_right

/-- Settles O25: `OUT` and `SNAP` show the same state bits, each at the place its layout lemma gives (R58). -/
theorem outputPinVector : Obligations.OutputPinVector := by
  unfold Obligations.OutputPinVector
  refine ⟨fun s => ?_, by decide⟩
  obtain ⟨hdat, hser, htx, hhb, hprog, hrecog⟩ := s.out_bits
  obtain ⟨-, -, hdatSnap, hserSnap, -⟩ := s.snap_flags
  exact ⟨hdat, hser, htx, hhb, hprog, hrecog, hdat.trans hdatSnap.symm, hser.trans hserSnap.symm, s.out_extractLsb'_low⟩

/-! ### The cycle as its operations (R57, R107) -/

/-- One strobe: its operation runs on the state the operations before it left, or nothing does. -/
theorem runOps_append_strobe {is : List Instr} {s t : State} (h : runOps is s = .next t) (strobe : Bool) (i : Instr) :
    runOps (is ++ if strobe then [i] else []) s = .next (if strobe then after i t else t) := by
  rw [runOps_append _ _ _ _ h]
  cases strobe
  · rfl
  · exact runOps_cons i [] t

theorem runOps_expandPins (v : PinVector) (s : State) : runOps (expandPins v) s = .next (cycle Config.timer v s) := by
  unfold expandPins cycle
  split
  · rfl
  · have htick : runOps [.tick] s = .next (tick Config.timer s) := rfl
    have hclk := runOps_append_strobe htick (pinClk v) .clk
    have hdat := runOps_append_strobe hclk (pinDat v) .dat
    have hbtn := runOps_append_strobe hdat (pinBtn v) .btn
    exact runOps_append_strobe hbtn (pinSerStb v) (.ser (pinSerByte v))

/-- Settles O27: the operations written out there are `expandPins`, run strobe by strobe (R57, R107). -/
theorem cyclePerformsItsOperations : Obligations.CyclePerformsItsOperations := by
  unfold Obligations.CyclePerformsItsOperations
  exact runOps_expandPins

end Sys2Proof.Machine
end

section
/-! PROOF. The frame events (40_frame_events.md R76, R79 to R82): the next state of `CLK`, `DAT`, `BTN` and `SER`, one lemma
per branch, with every field not written left as it was. -/

namespace Sys2Proof.Machine

/-! ### `CLK` (R76) -/

/-- The received frame is the start code exactly if its first three elements are 1 and no pulse came in the last bit period
(R26, R76). -/
theorem Frame.set_resolveBit_eq_startCode_iff (f : Frame) (acc : Byte) :
    f.set 3 (resolveBit acc) = startCode ↔ f.b0 = true ∧ f.b1 = true ∧ f.b2 = true ∧ acc = 0 := by
  rw [Frame.ext_iff]
  simp [Frame.set, startCode, resolveBit]

theorem receiveBit_of_pos_ne_three {s : State} (hp : s.pos ≠ 3) :
    receiveBit s =
      { s with frame := s.frame.set s.pos (resolveBit s.acc), acc := 0, prog := !s.prog, pos := s.pos + 1 } := by
  simpa [hp] using receiveBit_cases s

theorem receiveBit_of_ne_startCode {s : State} (hp : s.pos = 3) (hf : s.frame.set 3 (resolveBit s.acc) ≠ startCode) :
    receiveBit s =
      { s with frame := s.frame.set 3 (resolveBit s.acc), acc := 0, prog := !s.prog, pos := 0, rcv := false } := by
  simpa [hp, hf] using receiveBit_cases s

theorem receiveBit_of_startCode {s : State} (hp : s.pos = 3) (hf : s.frame.set 3 (resolveBit s.acc) = startCode) :
    receiveBit s =
      { s with frame := startCode, acc := 0, prog := !s.prog, pos := 0, rcv := false, recogN := false,
               records := s.records ++ [.recog] } := by
  simpa [hp, hf] using receiveBit_cases s

theorem clk_of_receiving {s : State} (hr : s.rcv = true) : clk s = receiveBit (arm { s with hb := !s.hb }) := by
  simp [clk, hr]

theorem clk_of_sending {s : State} (hr : s.rcv = false) (hs : s.snd = true) :
    clk s = sendNextBit (arm { s with hb := !s.hb }) := by
  simp [clk, hr, hs]

theorem clk_of_idle {s : State} (hr : s.rcv = false) (hs : s.snd = false) : clk s = arm { s with hb := !s.hb } := by
  simp [clk, hr, hs]

theorem clk_of_receiving_before_last {s : State} (hr : s.rcv = true) (hp : s.pos ≠ 3) :
    clk s = { arm { s with hb := !s.hb } with
      frame := s.frame.set s.pos (resolveBit s.acc), acc := 0, prog := !s.prog, pos := s.pos + 1 } := by
  rw [clk_of_receiving hr, receiveBit_of_pos_ne_three (by simpa using hp)]
  simp

theorem clk_of_receiving_other {s : State} (hr : s.rcv = true) (hp : s.pos = 3)
    (hf : s.frame.set 3 (resolveBit s.acc) ≠ startCode) :
    clk s = { arm { s with hb := !s.hb } with
      frame := s.frame.set 3 (resolveBit s.acc), acc := 0, prog := !s.prog, pos := 0, rcv := false } := by
  rw [clk_of_receiving hr, receiveBit_of_ne_startCode (by simpa using hp) (by simpa using hf)]
  simp

theorem clk_of_receiving_startCode {s : State} (hr : s.rcv = true) (hp : s.pos = 3)
    (hf : s.frame.set 3 (resolveBit s.acc) = startCode) :
    clk s = { arm { s with hb := !s.hb } with
      frame := startCode, acc := 0, prog := !s.prog, pos := 0, rcv := false, recogN := false,
      records := (arm { s with hb := !s.hb }).records ++ [.recog] } := by
  rw [clk_of_receiving hr, receiveBit_of_startCode (by simpa using hp) (by simpa using hf)]
  simp

/-- Elements 0 to 2 of the start code are 1 (R26). -/
theorem startCode_get_of_ne_three {i : BitIndex} (h : i ≠ 3) : startCode.get i = true := by
  revert i; decide

theorem clk_of_sending_before_last {s : State} (hr : s.rcv = false) (hs : s.snd = true) (hp : s.pos ≠ 3) :
    clk s = { arm { s with hb := !s.hb } with
      pos := s.pos + 1, records := (arm { s with hb := !s.hb }).records ++ [.sent true] } := by
  rw [clk_of_sending hr hs, sendNextBit_of_armed (arm_perEn _) (arm_carEn _)]
  simp [hp, startCode_get_of_ne_three]

theorem clk_of_sending_last {s : State} (hr : s.rcv = false) (hs : s.snd = true) (hp : s.pos = 3) :
    clk s = { arm { s with hb := !s.hb } with
      pos := 0, snd := false, datEn := true,
      records := (arm { s with hb := !s.hb }).records ++ [.sent false] } := by
  have hbit : startCode.get 3 = false := rfl
  rw [clk_of_sending hr hs, sendNextBit_of_armed (arm_perEn _) (arm_carEn _)]
  simp [hp, hbit]

/-- Settles O13: one lemma for each branch of `CLK`; whether the completed frame is the start code is read off its
elements (R76). -/
theorem clockEdgeEffect : Obligations.ClockEdgeEffect := by
  unfold Obligations.ClockEdgeEffect
  refine ⟨decode_encode .clk, fun s => ?_⟩
  simp only [exec_eq_after, after, Host.Outcome.next.injEq]
  refine ⟨clk_of_idle, clk_of_receiving_before_last, fun hr hp hother => ?_, fun hr hp h0 h1 h2 hacc => ?_,
    clk_of_sending_before_last, clk_of_sending_last⟩
  · exact clk_of_receiving_other hr hp (mt (s.frame.set_resolveBit_eq_startCode_iff s.acc).1 hother)
  · exact clk_of_receiving_startCode hr hp
      ((s.frame.set_resolveBit_eq_startCode_iff s.acc).2 ⟨h0, h1, h2, hacc⟩)

/-! ### `DAT` (R79) -/

theorem dat_of_closed {s : State} (h : s.datEn = false) : dat s = s := by
  simp [dat, h]

theorem dat_of_open {s : State} (h : s.datEn = true) :
    dat s = { s with rcv := true, acc := satInc8 s.acc, pos := if s.isIdle then 0 else s.pos } := by
  cases hi : s.isIdle <;> simp [dat, h, hi]

theorem satInc8_eq (v : Byte) : satInc8 v = if v = 255 then 255 else v + 1 := by
  unfold satInc8
  split
  · assumption
  · rfl

/-- Settles O14: `DAT` by its one guard; the saturating increment and the mode are spelled out (R79). -/
theorem dataEdgeEffect : Obligations.DataEdgeEffect := by
  unfold Obligations.DataEdgeEffect
  refine ⟨decode_encode .dat, fun s => ?_⟩
  simp only [exec_eq_after, after, ← satInc8_eq, ← isIdle_iff]
  exact ⟨fun h => by rw [dat_of_closed h], fun h => by rw [dat_of_open h]⟩

/-! ### `BTN` and `SER` (R80 to R82) -/

theorem isIdle_eq_false_iff (s : State) : s.isIdle = false ↔ s.rcv = true ∨ s.snd = true := by
  unfold State.isIdle
  cases s.rcv <;> simp

theorem ser_of_closed {s : State} (h : s.serEn = false) (b : Byte) : ser b s = s := by
  simp [ser, h]

theorem ser_cmdByte_of_open {s : State} (h : s.serEn = true) : ser cmdByte s = sendRequest s := by
  simp [ser, h]

theorem ser_of_busy {s : State} (h : s.isIdle = false) (b : Byte) : ser b s = s := by
  rw [ser, sendRequest_of_busy h, ite_self]

/-- Settles O15: both requests are `SendRequest()` where they pass their guard, and that acts in Idle only (R80 to R82). -/
theorem sendRequestEffect : Obligations.SendRequestEffect := by
  unfold Obligations.SendRequestEffect
  refine ⟨decode_encode .btn, fun b => decode_encode (.ser b), fun s => ?_⟩
  simp only [exec_eq_after, after, btn, Host.Outcome.next.injEq]
  refine ⟨fun hr hs => ?_, fun hbusy => ?_, fun hser hr hs => ?_, fun b hmasked => ?_⟩
  · exact sendRequest_of_idle ((isIdle_iff s).2 ⟨hr, hs⟩)
  · exact sendRequest_of_busy ((isIdle_eq_false_iff s).2 hbusy)
  · exact (ser_cmdByte_of_open hser).trans (sendRequest_of_idle ((isIdle_iff s).2 ⟨hr, hs⟩))
  · obtain hclosed | hb | hbusy := hmasked
    · exact ser_of_closed hclosed b
    · exact ser_of_ne_cmdByte hb s
    · exact ser_of_busy ((isIdle_eq_false_iff s).2 hbusy) b

end Sys2Proof.Machine
end

section
/-! PROOF. The Bit Timer (41_bit_timer.md R90, R93 to R95): the next state of `Arm()`, `PMATCH`, `CMATCH` and `TICK`, and which
operations end a burst. -/

namespace Sys2Proof.Machine

/-! ### `Arm()` (R90) -/

theorem arm_eq (s : State) :
    arm s = { s with perEn := true, carEn := true,
                     preCnt := if s.perEn then s.preCnt else 0,
                     perCnt := if s.perEn then s.perCnt else 0,
                     carCnt := if s.carEn then s.carCnt else 0,
                     records := s.records ++ if s.perEn then [] else [.burst] } := by
  apply State.ext <;> simp

/-- Settles O16: the effect of `Arm()` field by field, and its no-op on an armed timer (R90). -/
theorem armEnablesBothSources : Obligations.ArmEnablesBothSources := by
  unfold Obligations.ArmEnablesBothSources
  exact fun s => ⟨arm_eq s, arm_of_armed⟩

/-! ### `CMATCH` (R94) -/

theorem cmatch_of_enabled {s : State} (h : s.carEn = true) : cmatch s = { s with tx := !s.tx } := by
  simp [cmatch, h]

theorem cmatch_of_disabled {s : State} (h : s.carEn = false) : cmatch s = s := by
  simp [cmatch, h]

/-- Settles O19: `CMATCH` by its one guard (R94). -/
theorem carrierMatchEffect : Obligations.CarrierMatchEffect := by
  unfold Obligations.CarrierMatchEffect
  refine ⟨decode_encode .cmatch, fun s => ?_⟩
  simp only [exec_eq_after, after, Host.Outcome.next.injEq]
  exact ⟨cmatch_of_enabled, cmatch_of_disabled⟩

/-! ### `PMATCH` (R93) -/

theorem pmatch_of_enabled {s : State} (h : s.perEn = true) :
    pmatch s = { s with perEn := false, carEn := false, tx := false, records := s.records ++ [.burstEnd] } := by
  simp [pmatch, h, emit]

theorem pmatch_of_disabled {s : State} (h : s.perEn = false) : pmatch s = s := by
  simp [pmatch, h]

/-- Between the two states a timing source was turned off (R17, R18). -/
def clearsEnable (s t : State) : Prop :=
  (s.perEn = true ∧ t.perEn = false) ∨ (s.carEn = true ∧ t.carEn = false)

theorem not_clearsEnable_of_eq {s t : State} (hper : t.perEn = s.perEn) (hcar : t.carEn = s.carEn) :
    ¬clearsEnable s t := by
  simp [clearsEnable, hper, hcar]

theorem not_clearsEnable_clk (s : State) : ¬clearsEnable s (clk s) := by
  simp [clearsEnable]

/-- A `TICK` turns a source off only in the cycle of the period match (R95). -/
theorem periodMatch_of_clearsEnable_tick {p : TimerParams} {s : State} (h : clearsEnable s (tick p s)) :
    periodMatch p s = true := by
  obtain ⟨hon, hoff⟩ | ⟨hon, hoff⟩ := h <;> simpa [hon] using hoff

/-- The operations that can end a burst (R93): `CLK` leaves both sources on, and the others write neither enable. -/
theorem clearsEnable_cases {i : Instr} {s : State} (h : clearsEnable s (after i s)) :
    i = .pmatch ∨ i = .rst ∨ (i = .tick ∧ periodMatch Config.timer s = true) := by
  cases i with
  | pmatch => exact .inl rfl
  | rst => exact .inr (.inl rfl)
  | tick => exact .inr (.inr ⟨rfl, periodMatch_of_clearsEnable_tick h⟩)
  | clk => exact absurd h (not_clearsEnable_clk s)
  | nop => exact absurd h (not_clearsEnable_of_eq rfl rfl)
  | dat => exact absurd h (not_clearsEnable_of_eq (dat_perEn s) (dat_carEn s))
  | btn => exact absurd h (not_clearsEnable_of_eq (sendRequest_perEn s) (sendRequest_carEn s))
  | ser b => exact absurd h (not_clearsEnable_of_eq (ser_perEn b s) (ser_carEn b s))
  | cmatch => exact absurd h (not_clearsEnable_of_eq (cmatch_perEn s) (cmatch_carEn s))

theorem tick_records_of_periodMatch {p : TimerParams} {s : State} (h : periodMatch p s = true) :
    (tick p s).records = s.records ++ [.burstEnd] := by
  simp [h]

/-- Settles O18: `PMATCH` by its one guard; the operations that clear an enable by case analysis, and a `TICK` among them
is at its period match, so that it reports the end of the burst (R93, R95). -/
theorem periodMatchEffect : Obligations.PeriodMatchEffect := by
  unfold Obligations.PeriodMatchEffect
  simp only [exec_eq_after, Host.Outcome.next.injEq]
  refine ⟨decode_encode .pmatch, fun s => pmatch_of_enabled, fun s => pmatch_of_disabled, ?_⟩
  rintro i s _ rfl hclears
  obtain hpmatch | hrst | ⟨rfl, hmatch⟩ := clearsEnable_cases hclears
  · exact .inl hpmatch
  · exact .inr (.inl hrst)
  · exact .inr (.inr ⟨rfl, tick_records_of_periodMatch hmatch⟩)

/-! ### `TICK` (R95) -/

theorem carrierMatch_iff (p : TimerParams) (s : State) :
    carrierMatch p s = true ↔ s.carEn = true ∧ s.carCnt = (p.carrierTarget : Nat) - 1 := by
  simp [carrierMatch, atMatch]

theorem prescaledCount_iff (p : TimerParams) (s : State) :
    prescaledCount p s = true ↔ s.perEn = true ∧ s.preCnt = (p.prescale : Nat) - 1 := by
  simp [prescaledCount, atMatch]

theorem periodMatch_iff (p : TimerParams) (s : State) :
    periodMatch p s = true ↔ prescaledCount p s = true ∧ s.perCnt = (p.periodTarget : Nat) - 1 := by
  simp [periodMatch, atMatch]

/-- A counter behind an enable: it wraps at the enabled match, else counts if enabled, else holds (R95, R102). -/
theorem countUp_of_enable (target : ℕ+) (enable : Bool) (n : Nat) :
    (if enable then countUp target n else n) =
      if enable && atMatch target n then 0 else if enable then n + 1 else n := by
  cases enable <;> rfl

/-- The next state of `TICK`, by the three matches of the cycle: the carrier toggle is seen on the line only where the
period match does not clear it afterwards (R95). -/
theorem tick_eq (p : TimerParams) (s : State) :
    tick p s =
      { s with carCnt := if carrierMatch p s then 0 else if s.carEn then s.carCnt + 1 else s.carCnt
               preCnt := if prescaledCount p s then 0 else if s.perEn then s.preCnt + 1 else s.preCnt
               perCnt := if periodMatch p s then 0 else if prescaledCount p s then s.perCnt + 1 else s.perCnt
               tx := if periodMatch p s then false else if carrierMatch p s then !s.tx else s.tx
               perEn := if periodMatch p s then false else s.perEn
               carEn := if periodMatch p s then false else s.carEn
               records := s.records ++ if periodMatch p s then [.burstEnd] else [] } := by
  apply State.ext
  case carCnt => exact (tick_carCnt p s).trans (countUp_of_enable _ _ _)
  case preCnt => exact (tick_preCnt p s).trans (countUp_of_enable _ _ _)
  case perCnt => exact (tick_perCnt p s).trans (countUp_of_enable _ _ _)
  case tx => cases hc : carrierMatch p s <;> cases hp : periodMatch p s <;> simp [hc, hp]
  case perEn => cases hp : periodMatch p s <;> simp [hp]
  case carEn => cases hp : periodMatch p s <;> simp [hp]
  -- What is left are the records and the fields `TICK` does not write.
  all_goals simp

/-- Settles O20: the next state of `TICK`, its three matches spelled out as enables and last counts (R95). -/
theorem tickEffect : Obligations.TickEffect := by
  unfold Obligations.TickEffect
  refine ⟨decode_encode .tick, exec_eq_after .tick, fun p s => ?_⟩
  simp only [← carrierMatch_iff, ← prescaledCount_iff, ← periodMatch_iff]
  exact tick_eq p s

end Sys2Proof.Machine
end

section
/-! PROOF. The system operations (42_system_and_cycle.md R105, R106): what `RST` alone does, and what makes a cycle without
an event empty. -/

namespace Sys2Proof.Machine

/-! ### `RST` (R105) -/

/-- Without `RST` the serial path is never opened: a send request closes it, and the other operations do not write it. -/
theorem serEn_of_after {i : Instr} {s : State} (hi : i ≠ .rst) (h : (after i s).serEn = true) : s.serEn = true := by
  cases i with
  | rst => exact absurd rfl hi
  | nop => exact h
  | clk => exact (clk_serEn s).symm.trans h
  | dat => exact (dat_serEn s).symm.trans h
  | btn => exact (Bool.and_eq_true_iff.1 ((sendRequest_serEn s).symm.trans h)).2
  | ser b => exact (Bool.and_eq_true_iff.1 ((ser_serEn b s).symm.trans h)).2
  | pmatch => exact (pmatch_serEn s).symm.trans h
  | cmatch => exact (cmatch_serEn s).symm.trans h
  | tick => exact (tick_serEn Config.timer s).symm.trans h

/-- Without `RST` a recognition is never withdrawn: `CLK` can only lower `RECOG_N`, and the other operations do not write
it. -/
theorem recogN_of_after {i : Instr} {s : State} (hi : i ≠ .rst) (h : (after i s).recogN = true) : s.recogN = true := by
  cases i with
  | rst => exact absurd rfl hi
  | nop => exact h
  | clk => exact (Bool.and_eq_true_iff.1 ((clk_recogN s).symm.trans h)).1
  | dat => exact (dat_recogN s).symm.trans h
  | btn => exact (sendRequest_recogN s).symm.trans h
  | ser b => exact (ser_recogN b s).symm.trans h
  | pmatch => exact (pmatch_recogN s).symm.trans h
  | cmatch => exact (cmatch_recogN s).symm.trans h
  | tick => exact (tick_recogN Config.timer s).symm.trans h

/-- Settles O21: the items as `rst` writes them, and for the other operations the two lemmas on what they never raise
(R105). -/
theorem resetEffect : Obligations.ResetEffect := by
  unfold Obligations.ResetEffect
  refine ⟨decode_encode .rst, exec_eq_after .rst, fun i s t hi ht => ?_⟩
  obtain rfl : after i s = t := by rwa [exec_eq_after, Host.Outcome.next.injEq] at ht
  exact ⟨serEn_of_after hi, recogN_of_after hi⟩

/-! ### `NOP` and the cycle without an event (R106) -/

/-- A counter that one count leaves as it is wrapped (R102): its target is 1. -/
theorem atMatch_of_countUp_eq_self {target : ℕ+} {n : Nat} (h : countUp target n = n) : atMatch target n = true := by
  unfold countUp at h
  split at h
  · assumption
  · omega

theorem tick_of_disabled (p : TimerParams) {s : State} (hper : s.perEn = false) (hcar : s.carEn = false) :
    tick p s = s := by
  apply State.ext <;> simp [periodMatch, prescaledCount, carrierMatch, hper, hcar]

/-- A period match leaves a record (R93). -/
theorem periodMatch_eq_false_of_tick_eq_self {p : TimerParams} {s : State} (h : tick p s = s) :
    periodMatch p s = false := by
  have hrecords := congrArg State.records h
  simpa using hrecords

/-- Were the period source enabled, both its counters would wrap in place, and that is a period match. -/
theorem perEn_eq_false_of_tick_eq_self {p : TimerParams} {s : State} (h : tick p s = s) : s.perEn = false := by
  rw [Bool.eq_false_iff]
  intro hon
  have hpre : prescaledCount p s = true := by
    have hcnt : countUp p.prescale s.preCnt = s.preCnt := by simpa [hon] using congrArg State.preCnt h
    simp [prescaledCount, hon, atMatch_of_countUp_eq_self hcnt]
  have hmatch : periodMatch p s = true := by
    have hcnt : countUp p.periodTarget s.perCnt = s.perCnt := by simpa [hpre] using congrArg State.perCnt h
    simp [periodMatch, hpre, atMatch_of_countUp_eq_self hcnt]
  simp [periodMatch_eq_false_of_tick_eq_self h] at hmatch

/-- Were the carrier source enabled, its counter would wrap in place, and that toggles `TX`. -/
theorem carEn_eq_false_of_tick_eq_self {p : TimerParams} {s : State} (h : tick p s = s) : s.carEn = false := by
  rw [Bool.eq_false_iff]
  intro hon
  have hmatch : carrierMatch p s = true := by
    have hcnt : countUp p.carrierTarget s.carCnt = s.carCnt := by simpa [hon] using congrArg State.carCnt h
    simp [carrierMatch, hon, atMatch_of_countUp_eq_self hcnt]
  have htx : (!s.tx) = s.tx := by simpa [periodMatch_eq_false_of_tick_eq_self h, hmatch] using congrArg State.tx h
  simp at htx

/-- `TICK` is empty exactly if nothing counts: an enabled source moves a counter or, at a target of 1, matches (R95). -/
theorem tick_eq_self_iff (p : TimerParams) (s : State) : tick p s = s ↔ s.perEn = false ∧ s.carEn = false :=
  ⟨fun h => ⟨perEn_eq_false_of_tick_eq_self h, carEn_eq_false_of_tick_eq_self h⟩,
    fun ⟨hper, hcar⟩ => tick_of_disabled p hper hcar⟩

theorem cycle_zero (p : TimerParams) (s : State) : cycle p 0x0000 s = tick p s := by
  simp [cycle, pinRst, pinClk, pinDat, pinBtn, pinSerStb]

/-- Settles O12: `NOP` answers its state; the cycle without an event is `TICK`, and that is empty exactly if nothing counts
(R106). -/
theorem nopIsTheEmptyEvent : Obligations.NopIsTheEmptyEvent := by
  unfold Obligations.NopIsTheEmptyEvent
  exact ⟨decode_encode .nop, exec_eq_after .nop, cycle_zero, tick_eq_self_iff⟩

end Sys2Proof.Machine
end

section
/-! PROOF. The exceptional events (60_exceptions.md R115, R119): a word without operation is the only thing a step refuses, and
an event whose guard is closed is dropped. -/

namespace Sys2Proof

/-! ### The two checks on a word, by its fields (R63, R64) -/

theorem EventWord.argField_toNat (w : EventWord) : w.argField.toNat = w.toNat % 256 := by
  rw [EventWord.argField, BitVec.extractLsb'_toNat, Nat.shiftRight_zero]

theorem EventWord.opIsAssigned_eq_false_iff (w : EventWord) : w.opIsAssigned = false ↔ 0x9 ≤ w.opField := by
  rw [EventWord.opIsAssigned, ← w.opField_toNat, decide_eq_false_iff_not, not_le]
  exact Iff.rfl

theorem EventWord.argIsAllowed_eq_false_iff (w : EventWord) :
    w.argIsAllowed = false ↔ w.opField ≠ 0x4 ∧ w.argField ≠ 0 := by
  rw [EventWord.argIsAllowed, ← w.opField_toNat, ← w.argField_toNat, Bool.or_eq_false_iff, beq_eq_false_iff_ne,
    beq_eq_false_iff_ne]
  exact and_congr (BitVec.toNat_inj (y := 0x4)).not (BitVec.toNat_inj (y := 0)).not

/-- The inversion of a refusal: one of the two checks fails, and the refusal names it. -/
theorem decode_error_cases {w : EventWord} {e : DecodeError} (h : decode w = .error e) :
    (w.opIsAssigned = false ∧ e = .reservedOp w) ∨ (w.argIsAllowed = false ∧ e = .reservedArg w) := by
  rw [w.opIsAssigned_eq_false_iff, w.argIsAllowed_eq_false_iff]
  unfold decode at h
  split_ifs at h with hser hres harg <;> cases h
  · exact .inl ⟨hres, rfl⟩
  · exact .inr ⟨⟨hser, harg⟩, rfl⟩

namespace Machine

/-! ### What a step can answer (R115) -/

/-- A refused word is ill-formed, and the refusal carries it under one of the two names. -/
theorem step_of_decode_error {s : State} {w : EventWord} {rest : List Input} {e : DecodeError}
    (hin : s.input = .word w :: rest) (hd : decode w = .error e) :
    w.wellFormed = false ∧ (step s = .refused (.reservedOp w) ∨ step s = .refused (.reservedArg w)) := by
  have hstep := step_refused hin hd
  rw [EventWord.wellFormed, Bool.and_eq_false_iff]
  obtain ⟨hop, rfl⟩ | ⟨harg, rfl⟩ := decode_error_cases hd
  · exact ⟨.inl hop, .inl hstep⟩
  · exact ⟨.inr harg, .inr hstep⟩

/-- Settles O9: `exec` answers the state `after` names; a step is split by its next input, and only a word that `decode`
refuses has no next state (R115). -/
theorem everyOperationIsTotal : Obligations.EveryOperationIsTotal := by
  unfold Obligations.EveryOperationIsTotal
  refine ⟨fun i s => ⟨_, exec_eq_after i s⟩, fun s => ?_⟩
  match hin : s.input with
  | [] => exact .inl ⟨_, step_nil hin⟩
  | .pins v :: rest => exact .inl ⟨_, step_pins hin⟩
  | .word w :: rest =>
    cases hd : decode w with
    | ok i => exact .inl ⟨_, step_word hin hd⟩
    | error e => exact .inr ⟨w, rest, rfl, step_of_decode_error hin hd⟩

/-! ### The events without effect (R119) -/

/-- Settles O24: each operation by its own guard; `Arm()` on an armed timer is its no-op (R119). -/
theorem maskedEventsLeaveNoTrace : Obligations.MaskedEventsLeaveNoTrace := by
  unfold Obligations.MaskedEventsLeaveNoTrace
  intro s
  simp only [exec_eq_after, after, Host.Outcome.next.injEq]
  exact ⟨dat_of_closed, fun b h => ser_of_closed h b, pmatch_of_disabled, cmatch_of_disabled,
    fun b h => ser_of_ne_cmdByte h s, arm_of_armed⟩

end Machine

end Sys2Proof
end

section
/-! PROOF. Words and operations (30_encoding.md R62 to R64, R69): the round trip, and the words that are refused. -/

namespace Sys2Proof

/-- Settles O3: `decode` answers an operation exactly on that operation's word (R64, R70). -/
theorem eachOperationHasOneWord : Obligations.EachOperationHasOneWord := by
  unfold Obligations.EachOperationHasOneWord
  exact fun i w => decode_eq_ok_iff w i

/-- Settles O1: nine of the words are `encode` of their operation, and the fields of the other two are refused (R62 to
R64). -/
theorem wordsDecodeToTheirOperations : Obligations.WordsDecodeToTheirOperations := by
  unfold Obligations.WordsDecodeToTheirOperations
  exact ⟨decode_encode .nop, decode_encode .clk, decode_encode .dat, decode_encode .btn, decode_encode (.ser 0x61),
    decode_of_reservedArg (by decide) (by decide) (by decide), decode_encode .pmatch, decode_encode .cmatch,
    decode_encode .rst, decode_encode .tick, decode_of_reservedOp (by decide)⟩

/-- Settles O4: from 0x900 up the opcode is reserved, and that test comes before the argument's (R63). -/
theorem reservedOpcodesAreRefused : Obligations.ReservedOpcodesAreRefused := by
  unfold Obligations.ReservedOpcodesAreRefused
  intro s w rest hin hw
  exact Machine.step_refused hin (decode_of_reservedOp (w.nine_le_opField_iff.2 hw))

theorem wellFormed_encode (i : Instr) : (encode i).wellFormed = true := by
  cases i with
  | nop => exact Laws.Encoded.nop.1
  | clk => exact Laws.Encoded.clk.1
  | dat => exact Laws.Encoded.dat.1
  | btn => exact Laws.Encoded.btn.1
  | ser b => exact (Laws.Encoded.ser b).1
  | pmatch => exact Laws.Encoded.pmatch.1
  | cmatch => exact Laws.Encoded.cmatch.1
  | rst => exact Laws.Encoded.rst.1
  | tick => exact Laws.Encoded.tick.1

theorem wellFormed_eq_false_of_decode_error {w : EventWord} {e : DecodeError} (h : decode w = .error e) :
    w.wellFormed = false := by
  rw [EventWord.wellFormed, Bool.and_eq_false_iff]
  exact (decode_error_cases h).imp And.left And.left

/-- Settles O6: an operation's word passes both checks, and a refused word fails one (R63, R64). -/
theorem decodeAcceptsTheWellFormedWords : Obligations.DecodeAcceptsTheWellFormedWords := by
  unfold Obligations.DecodeAcceptsTheWellFormedWords
  intro w
  constructor
  · rintro ⟨i, hi⟩
    rw [(decode_eq_ok_iff w i).1 hi]
    exact wellFormed_encode i
  · intro hw
    cases hd : decode w with
    | ok i => exact ⟨i, rfl⟩
    | error e => simp [wellFormed_eq_false_of_decode_error hd] at hw

end Sys2Proof
end

section
/-! PROOF. The written form of traces (30_encoding.md R67): hexadecimal digits are read back as the number they write, and a
line without comment and final space is read whole. -/

namespace Sys2Proof.Machine

/-! ### Hexadecimal digits -/

theorem hexValue_hexDigit {n : Nat} (h : n < 16) : hexValue (hexDigit n) = some n := by
  revert h; revert n; decide

theorem hexNumber_append_digit (acc : Nat) (ds : List Char) (d : Nat) (hd : d < 16) :
    hexNumber acc (ds ++ [hexDigit d]) = (hexNumber acc ds).map (16 * · + d) := by
  induction ds generalizing acc with
  | nil => simp [hexNumber, hexValue_hexDigit hd]
  | cons c cs ih =>
    simp only [List.cons_append, hexNumber]
    cases hexValue c with
    | none => rfl
    | some e => exact ih _

/-- The lowest digits of a number write its remainder. -/
theorem hexNumber_hexDigits (k n : Nat) : hexNumber 0 (hexDigits k n) = some (n % 16 ^ k) := by
  induction k generalizing n with
  | zero => simp [hexDigits, hexNumber, Nat.mod_one]
  | succ k ih =>
    rw [hexDigits, hexNumber_append_digit _ _ _ (Nat.mod_lt n (by decide)), ih, Option.map_some, Nat.pow_succ',
      Nat.mod_mul, Nat.add_comm]

/-- A digit neither starts a comment nor is a space. -/
theorem hexDigit_ne {n : Nat} (h : n < 16) : hexDigit n ≠ ';' ∧ hexDigit n ≠ ' ' := by
  revert h; revert n; decide

theorem ne_semicolon_of_mem_hexDigits {k n : Nat} {c : Char} (h : c ∈ hexDigits k n) : c ≠ ';' := by
  induction k generalizing n with
  | zero => cases h
  | succ k ih =>
    rw [hexDigits, List.mem_append, List.mem_singleton] at h
    obtain h | rfl := h
    · exact ih h
    · exact (hexDigit_ne (Nat.mod_lt n (by decide))).1

/-! ### Lines -/

theorem withoutComment_append_last {l : List Char} {c : Char} (hl : ∀ d ∈ l, d ≠ ';') (hsemi : c ≠ ';') (hspace : c ≠ ' ') :
    withoutComment (l ++ [c]) = l ++ [c] := by
  have htake : (l ++ [c]).takeWhile (fun d => d != ';') = l ++ [c] := by
    rw [List.takeWhile_eq_self_iff]
    intro d hd
    obtain hd | rfl := List.mem_append.1 hd |>.imp_right List.mem_singleton.1
    · simpa using hl d hd
    · simpa using hsemi
  simp [withoutComment, htake, hspace]

/-- A line that ends in hexadecimal digits has no comment if its beginning has none. -/
theorem withoutComment_append_hexDigits {l : List Char} (hl : ∀ d ∈ l, d ≠ ';') (k n : Nat) :
    withoutComment (l ++ hexDigits (k + 1) n) = l ++ hexDigits (k + 1) n := by
  obtain ⟨hsemi, hspace⟩ := hexDigit_ne (Nat.mod_lt n (y := 16) (by decide))
  rw [hexDigits, ← List.append_assoc]
  refine withoutComment_append_last (fun d hd => ?_) hsemi hspace
  exact (List.mem_append.1 hd).elim (hl d) ne_semicolon_of_mem_hexDigits

theorem readOperation_serLine (b : Byte) : readOperation (operationLine (.ser b)) = some (.ser b) := by
  have hline : withoutComment (operationLine (.ser b)) = operationLine (.ser b) :=
    withoutComment_append_hexDigits (l := ['S', 'E', 'R', ' ', '0', 'x']) (by simp) 1 b.toNat
  have hbyte : readByte (['0', 'x'] ++ hexDigits 2 b.toNat) = some b := by
    change (hexNumber 0 (hexDigits 2 b.toNat)).map (BitVec.ofNat 8) = some b
    rw [hexNumber_hexDigits, Option.map_some, Nat.mod_eq_of_lt (b.isLt.trans_eq (by decide)), BitVec.ofNat_toNat, BitVec.setWidth_eq]
  unfold readOperation
  rw [hline]
  change (readByte (['0', 'x'] ++ hexDigits 2 b.toNat)).map Instr.ser = some (.ser b)
  rw [hbyte, Option.map_some]

theorem readOperation_operationLine (i : Instr) : readOperation (operationLine i) = some i := by
  cases i with
  | ser b => exact readOperation_serLine b
  | nop => rfl
  | clk => rfl
  | dat => rfl
  | btn => rfl
  | pmatch => rfl
  | cmatch => rfl
  | rst => rfl
  | tick => rfl

theorem readPins_pinLine (v : PinVector) : readPins (pinLine v) = some v := by
  have hline : withoutComment (pinLine v) = pinLine v :=
    withoutComment_append_hexDigits (l := ['I', 'N', '=', '0', 'x']) (by simp) 3 v.toNat
  have hnumber : hexNumber 0 (hexDigits 4 v.toNat) = some v.toNat := by
    rw [hexNumber_hexDigits, Nat.mod_eq_of_lt (v.isLt.trans (by decide))]
  unfold readPins
  rw [hline]
  change (match hexNumber 0 (hexDigits 4 v.toNat) with
    | some n => if n < 8192 then some (BitVec.ofNat 13 n) else none
    | none => none) = some v
  simp [hnumber, v.isLt]

/-- Settles O7: an operation's line is its mnemonic, which is read as it stands, or ends in the two digits of the serial byte;
the line of a pin vector ends in its four digits (R67). -/
theorem traceLinesReadBack : Obligations.TraceLinesReadBack := by
  unfold Obligations.TraceLinesReadBack
  exact ⟨readOperation_operationLine, readPins_pinLine⟩

end Sys2Proof.Machine
end

section
/-! PROOF. Runs (20_memory.md R50): every list of operations runs to one state, every cycle is a `TICK` and then its events,
and what every operation keeps, a run and a cycle keep. -/

namespace Sys2Proof.Machine

/-! ### The state a list of operations leaves -/

/-- The state a list of operations leaves, each run on the state the one before left (R50). -/
def afterOps : List Instr → State → State
  | [], s => s
  | i :: is, s => afterOps is (after i s)

@[simp] theorem afterOps_nil (s : State) : afterOps [] s = s := rfl

@[simp] theorem afterOps_cons (i : Instr) (is : List Instr) (s : State) :
    afterOps (i :: is) s = afterOps is (after i s) := rfl

@[simp] theorem afterOps_append (is js : List Instr) (s : State) :
    afterOps (is ++ js) s = afterOps js (afterOps is s) := by
  induction is generalizing s with
  | nil => rfl
  | cons i is ih => exact ih _

theorem runOps_eq (is : List Instr) (s : State) : runOps is s = .next (afterOps is s) := by
  induction is generalizing s with
  | nil => rfl
  | cons i is ih => rw [runOps_cons, ih, afterOps_cons]

/-- The induction over a run: what every operation of the list keeps, the run keeps. -/
theorem afterOps_keeps {P : State → Prop} {is : List Instr} (h : ∀ i ∈ is, ∀ s, P s → P (after i s)) {s : State} (hs : P s) :
    P (afterOps is s) := by
  induction is generalizing s with
  | nil => exact hs
  | cons i is ih =>
    exact ih (fun j hj => h j (List.mem_cons_of_mem i hj)) (h i List.mem_cons_self s hs)

/-- The same for two runs of one list and a relation between their states. -/
theorem afterOps_keeps_rel {R : State → State → Prop} {is : List Instr}
    (h : ∀ i ∈ is, ∀ s u, R s u → R (after i s) (after i u)) {s u : State} (hs : R s u) :
    R (afterOps is s) (afterOps is u) := by
  induction is generalizing s u with
  | nil => exact hs
  | cons i is ih =>
    exact ih (fun j hj => h j (List.mem_cons_of_mem i hj)) (h i List.mem_cons_self s u hs)

theorem afterOps_replicate_of_fixed {i : Instr} {s : State} (h : after i s = s) (n : Nat) :
    afterOps (List.replicate n i) s = s :=
  afterOps_keeps (P := (· = s)) (fun j hj u hu => by rw [List.eq_of_mem_replicate hj, hu, h]) rfl

/-! ### The cycle (R57, R107) -/

/-- The events of a cycle but its clock edge: what may follow `TICK` and `CLK` (R57). -/
def lineEvents (v : PinVector) : List Instr :=
  (if pinDat v then [Instr.dat] else []) ++ (if pinBtn v then [Instr.btn] else []) ++
    (if pinSerStb v then [Instr.ser (pinSerByte v)] else [])

/-- The events of a cycle in their order (R57). -/
def events (v : PinVector) : List Instr := (if pinClk v then [Instr.clk] else []) ++ lineEvents v

theorem lineEvents_cases {v : PinVector} {i : Instr} (h : i ∈ lineEvents v) : i = .dat ∨ i = .btn ∨ ∃ b, i = .ser b := by
  simp only [lineEvents, List.mem_append, List.mem_ite_nil_right, List.mem_singleton] at h
  obtain (⟨-, h⟩ | ⟨-, h⟩) | ⟨-, h⟩ := h
  · exact .inl h
  · exact .inr (.inl h)
  · exact .inr (.inr ⟨_, h⟩)

theorem events_cases {v : PinVector} {i : Instr} (h : i ∈ events v) :
    i = .clk ∨ i = .dat ∨ i = .btn ∨ ∃ b, i = .ser b := by
  rw [events, List.mem_append, List.mem_ite_nil_right, List.mem_singleton] at h
  obtain ⟨-, h⟩ | h := h
  · exact .inl h
  · exact .inr (lineEvents_cases h)

theorem expandPins_of_not_rst {v : PinVector} (h : pinRst v = false) : expandPins v = .tick :: events v := by
  simp [expandPins, events, lineEvents, h]

theorem cycle_of_rst {v : PinVector} (h : pinRst v = true) (p : TimerParams) (s : State) : cycle p v s = rst s := by
  simp [cycle, h]

theorem afterOps_strobe (strobe : Bool) (i : Instr) (s : State) :
    afterOps (if strobe then [i] else []) s = if strobe then after i s else s := by
  cases strobe <;> rfl

theorem cycle_of_not_rst {v : PinVector} (h : pinRst v = false) (p : TimerParams) (s : State) :
    cycle p v s = afterOps (events v) (tick p s) := by
  simp only [events, lineEvents, afterOps_append, afterOps_strobe, after, cycle, h, Bool.false_eq_true, if_false]

/-- What `TICK` with the constants of the cycle and every operation but it and `CMATCH` keep, a cycle keeps. -/
theorem cycle_keeps {P : State → Prop} {p : TimerParams} (htick : ∀ s, P s → P (tick p s))
    (hops : ∀ i s, i ≠ .tick → i ≠ .cmatch → P s → P (after i s)) (v : PinVector) {s : State} (hs : P s) : P (cycle p v s) := by
  cases hr : pinRst v with
  | true =>
    rw [cycle_of_rst hr]
    exact hops .rst s (by decide) (by decide) hs
  | false =>
    rw [cycle_of_not_rst hr]
    refine afterOps_keeps (fun i hi s => hops i s ?_ ?_) (htick s hs) <;> rintro rfl <;> simpa using events_cases hi

/-- The same for one cycle on two states and a relation between them. -/
theorem cycle_keeps_rel {R : State → State → Prop} {p : TimerParams} (htick : ∀ s u, R s u → R (tick p s) (tick p u))
    (hops : ∀ i s u, i ≠ .tick → R s u → R (after i s) (after i u)) (v : PinVector) {s u : State} (hs : R s u) :
    R (cycle p v s) (cycle p v u) := by
  cases hr : pinRst v with
  | true =>
    rw [cycle_of_rst hr, cycle_of_rst hr]
    exact hops .rst s u (by decide) hs
  | false =>
    rw [cycle_of_not_rst hr, cycle_of_not_rst hr]
    refine afterOps_keeps_rel (fun i hi s u => hops i s u ?_) (htick s u hs)
    rintro rfl
    simpa using events_cases hi

theorem runCycles_append (p : TimerParams) (vs us : List PinVector) (s : State) :
    runCycles p (vs ++ us) s = runCycles p us (runCycles p vs s) := by
  induction vs generalizing s with
  | nil => rfl
  | cons v vs ih => exact ih _

/-! ### The inputs not yet delivered: no operation reads or writes them -/

@[simp] theorem after_input (i : Instr) (s : State) : (after i s).input = s.input := by
  cases i with
  | nop => rfl
  | clk => exact clk_input s
  | dat => exact dat_input s
  | btn => exact sendRequest_input s
  | ser b => exact ser_input b s
  | pmatch => exact pmatch_input s
  | cmatch => exact cmatch_input s
  | rst => rfl
  | tick => exact tick_input Config.timer s

@[simp] theorem cycle_input (p : TimerParams) (v : PinVector) (s : State) : (cycle p v s).input = s.input :=
  cycle_keeps (P := fun t => t.input = s.input) (fun t ht => (tick_input p t).trans ht)
    (fun i t _ _ ht => (after_input i t).trans ht) v rfl

theorem tick_withInput (p : TimerParams) (s : State) (xs : List Input) :
    tick p { s with input := xs } = { tick p s with input := xs } := by
  apply State.ext <;> simp [periodMatch, prescaledCount, carrierMatch]

theorem after_withInput (i : Instr) (s : State) (xs : List Input) :
    after i { s with input := xs } = { after i s with input := xs } := by
  cases i with
  | nop => rfl
  | rst => rfl
  | tick => exact tick_withInput Config.timer s xs
  | clk => apply State.ext <;> simp [after, recognizes]
  | dat => apply State.ext <;> simp [after, State.isIdle]
  | btn => apply State.ext <;> simp [after, btn, State.isIdle]
  | ser b => apply State.ext <;> simp [after, accepts, State.isIdle]
  | pmatch => apply State.ext <;> simp [after]
  | cmatch => apply State.ext <;> simp [after]

theorem cycle_withInput (p : TimerParams) (v : PinVector) (s : State) (xs : List Input) :
    cycle p v { s with input := xs } = { cycle p v s with input := xs } :=
  cycle_keeps_rel (R := fun t u => u = { t with input := xs }) (fun t _ h => h ▸ tick_withInput p t xs)
    (fun i t _ _ h => h ▸ after_withInput i t xs) v rfl

/-! ### What a run of the machine answers -/

/-- Settles O8: a step by the kind of its next input; the word of an operation decodes to it (R50). -/
theorem stepRunsTheDeliveredOperation : Obligations.StepRunsTheDeliveredOperation := by
  unfold Obligations.StepRunsTheDeliveredOperation
  refine fun s => ⟨step_nil, fun i rest hin => ?_, fun v rest => step_pins⟩
  rw [step_word hin (decode_encode i), exec_eq_after]

theorem run_words (es : List Instr) (s : State) :
    Host.Core.run Sys2Proof.core es.length ({ s with input := es.map fun i => .word (encode i) } : State) =
      runOps es { s with input := [] } := by
  induction es generalizing s with
  | nil => rfl
  | cons i es ih =>
    have hstep : step { s with input := (i :: es).map fun i => .word (encode i) } =
        .next { after i s with input := es.map fun i => .word (encode i) } :=
      (step_word rfl (decode_encode i)).trans (congrArg _ (after_withInput i s _))
    rw [List.length_cons, run_of_next hstep, runOps_cons, after_withInput i s []]
    exact ih (after i s)

theorem run_pins (vs : List PinVector) (s : State) :
    Host.Core.run Sys2Proof.core vs.length ({ s with input := vs.map .pins } : State) =
      .next (runCycles Config.timer vs { s with input := [] }) := by
  induction vs generalizing s with
  | nil => rfl
  | cons v vs ih =>
    have hstep : step { s with input := (v :: vs).map .pins } =
        .next { cycle Config.timer v s with input := vs.map .pins } :=
      (step_pins rfl).trans (congrArg _ (cycle_withInput Config.timer v s _))
    rw [List.length_cons, run_of_next hstep, runCycles, cycle_withInput Config.timer v s []]
    exact ih (cycle Config.timer v s)

/-- Settles O10: by induction on the inputs; what is still to be delivered does not touch an operation's result (R50). -/
theorem runsFollowTheDeliveredSequence : Obligations.RunsFollowTheDeliveredSequence := by
  unfold Obligations.RunsFollowTheDeliveredSequence
  exact ⟨run_words, run_pins⟩

end Sys2Proof.Machine
end

section
/-! PROOF. Traces (00_scope.md R9, 30_encoding.md R57, R65): a trace without reserved word runs to its end, and the timed traces
written in event words are those that pin vectors expand to. -/

namespace Sys2Proof.Machine

/-! ### Traces without reserved word (R65, R69) -/

theorem Input.operation_eq_some_iff (x : Input) (i : Instr) : x.operation = some i ↔ x = .word (encode i) := by
  constructor
  · intro h
    cases x with
    | pins v => cases h
    | word w =>
      rw [Input.operation] at h
      cases hd : decode w with
      | error e => simp [hd] at h
      | ok j =>
        obtain rfl : j = i := by simpa [hd] using h
        rw [encode_of_decode hd]
  · rintro rfl
    exact operation_encode i

/-- A pin vector, or a word that names an operation, is consumed. -/
theorem step_of_delivered {s : State} {x : Input} {rest : List Input} (hin : s.input = x :: rest)
    (hx : x.isPins = true ∨ ∃ i, x.operation = some i) : ∃ t, step s = .next t ∧ t.input = rest := by
  cases x with
  | pins v => exact ⟨_, step_pins hin, cycle_input _ _ _⟩
  | word w =>
    obtain hx | ⟨i, hi⟩ := hx
    · cases hx
    · rw [(Input.operation_eq_some_iff _ i).1 hi] at hin
      exact ⟨_, step_word hin (decode_encode i), after_input _ _⟩

theorem run_to_the_end (xs : List Input) (hxs : ∀ x ∈ xs, x.isPins = true ∨ ∃ i, x.operation = some i) {s : State}
    (hs : s.input = xs) : ∃ t : State, Host.Core.run Sys2Proof.core xs.length s = .next t ∧ t.input = [] := by
  induction xs generalizing s with
  | nil => exact ⟨s, rfl, hs⟩
  | cons x xs ih =>
    obtain ⟨u, hstep, hu⟩ := step_of_delivered hs (hxs x List.mem_cons_self)
    rw [List.length_cons, run_of_next hstep]
    exact ih (fun y hy => hxs y (List.mem_cons_of_mem x hy)) hu

/-- A list of inputs names operations exactly if it is their words. -/
theorem operations_eq_some_iff (xs : List Input) (is : List Instr) :
    operations xs = some is ↔ xs = is.map fun i => .word (encode i) := by
  refine ⟨fun h => ?_, fun h => h ▸ operations_words is⟩
  induction xs generalizing is with
  | nil =>
    cases h
    rfl
  | cons x xs ih =>
    simp only [operations_cons, Option.bind_eq_some_iff, Option.map_eq_some_iff] at h
    obtain ⟨i, hx, js, hxs, rfl⟩ := h
    rw [List.map_cons, ← ih js hxs, (x.operation_eq_some_iff i).1 hx]

theorem allowedIn_timed_of_cyclePlace {i : Instr} {place : Nat} (h : cyclePlace i = some place) :
    i.allowedIn .timed = true := by
  cases i with
  | nop => cases h
  | pmatch => cases h
  | cmatch => cases h
  | _ => rfl

/-- Operations of cycles are operations that a timed trace may name (R57, R65). -/
theorem allowedIn_timed_of_continuesCycles {last : Nat} {is : List Instr} (h : continuesCycles last is = true) :
    ∀ i ∈ is, i.allowedIn .timed = true := by
  induction is generalizing last with
  | nil => simp
  | cons i is ih =>
    rw [continuesCycles] at h
    cases hplace : cyclePlace i with
    | none => simp [hplace] at h
    | some place =>
      simp only [hplace, Bool.and_eq_true] at h
      exact List.forall_mem_cons.2 ⟨allowedIn_timed_of_cyclePlace hplace, ih h.2⟩

/-- The operations of an admitted trace of event words are such as its profile names. -/
theorem allowedIn_of_admits {pr : Profile} {xs : List Input} {is : List Instr} (hops : operations xs = some is)
    (h : admits pr xs = true) : ∀ i ∈ is, i.allowedIn pr = true := by
  cases pr with
  | untimed => simpa [admits, hops] using h
  | timed =>
    simp only [admits, hops] at h
    exact allowedIn_timed_of_continuesCycles h

theorem isPins_of_admits {pr : Profile} {xs : List Input} (hops : operations xs = none) (h : admits pr xs = true) :
    ∀ x ∈ xs, x.isPins = true := by
  cases pr with
  | untimed => simp [admits, hops] at h
  | timed => simpa [admits, hops] using h

/-- Settles O11: by induction on the trace, every input of which is consumed; an admitted trace is the words of allowed
operations or pin vectors alone (R65). -/
theorem admittedTracesRunToTheEnd : Obligations.AdmittedTracesRunToTheEnd := by
  unfold Obligations.AdmittedTracesRunToTheEnd
  refine ⟨fun s xs hxs => run_to_the_end xs hxs rfl, fun pr xs h x hx => ?_⟩
  cases hops : operations xs with
  | none => exact .inl (isPins_of_admits hops h x hx)
  | some is =>
    rw [(operations_eq_some_iff xs is).1 hops, List.mem_map] at hx
    obtain ⟨i, hi, rfl⟩ := hx
    exact .inr ⟨i, operation_encode i, allowedIn_of_admits hops h i hi⟩

/-! ### Traces of cycles written in event words (R57, R65) -/

/-- The pin vector of the given strobes, without reset (R56). -/
def pinsOf (c d b : Bool) (x : Option Byte) : PinVector :=
  BitVec.ofBool false ++ BitVec.ofBool c ++ BitVec.ofBool d ++ BitVec.ofBool b ++ BitVec.ofBool x.isSome ++ x.getD 0

/-- The strobes of a pin vector are its upper five bits (R56). -/
theorem strobes_eq (v : PinVector) :
    pinRst v = (v.extractLsb' 8 5).getLsbD 4 ∧ pinClk v = (v.extractLsb' 8 5).getLsbD 3 ∧
    pinDat v = (v.extractLsb' 8 5).getLsbD 2 ∧ pinBtn v = (v.extractLsb' 8 5).getLsbD 1 ∧
    pinSerStb v = (v.extractLsb' 8 5).getLsbD 0 := by
  simp [pinRst, pinClk, pinDat, pinBtn, pinSerStb]

theorem strobes_pinsOf (c d b : Bool) (x : Option Byte) :
    pinRst (pinsOf c d b x) = false ∧ pinClk (pinsOf c d b x) = c ∧ pinDat (pinsOf c d b x) = d ∧
    pinBtn (pinsOf c d b x) = b ∧ pinSerStb (pinsOf c d b x) = x.isSome := by
  have hhigh : (pinsOf c d b x).extractLsb' 8 5 =
      BitVec.ofBool false ++ BitVec.ofBool c ++ BitVec.ofBool d ++ BitVec.ofBool b ++ BitVec.ofBool x.isSome :=
    BitVec.extractLsb'_append_eq_left
  obtain ⟨hrst, hclk, hdat, hbtn, hstb⟩ := strobes_eq (pinsOf c d b x)
  rw [hrst, hclk, hdat, hbtn, hstb, hhigh]
  simp [BitVec.append_ofBool]

/-- The events of the given strobes, in the order of R57. -/
def eventsOf (c d b : Bool) (x : Option Byte) : List Instr :=
  (if c then [Instr.clk] else []) ++ (if d then [Instr.dat] else []) ++ (if b then [Instr.btn] else []) ++
    (x.map Instr.ser).toList

theorem events_pinsOf (c d b : Bool) (x : Option Byte) : events (pinsOf c d b x) = eventsOf c d b x := by
  have hbyte : pinSerByte (pinsOf c d b x) = x.getD 0 := BitVec.extractLsb'_append_eq_right
  obtain ⟨-, hclk, hdat, hbtn, hstb⟩ := strobes_pinsOf c d b x
  rw [events, eventsOf, lineEvents, hclk, hdat, hbtn, hstb, hbyte]
  cases x <;> simp

theorem expandPins_pinsOf (c d b : Bool) (x : Option Byte) :
    expandPins (pinsOf c d b x) = .tick :: eventsOf c d b x := by
  rw [expandPins_of_not_rst (strobes_pinsOf c d b x).1, events_pinsOf]

/-- The given strobes have places above `last` (R57). -/
structure StrobesAbove (last : Nat) (c d b : Bool) (x : Option Byte) : Prop where
  clk : c = true → last < 1
  dat : d = true → last < 2
  btn : b = true → last < 3
  ser : x ≠ none → last < 4

namespace StrobesAbove

variable {last : Nat} {c d b : Bool} {x : Option Byte}

theorem no_clk (h : StrobesAbove last c d b x) (hlast : 1 ≤ last) : c = false :=
  Bool.eq_false_iff.2 fun e => absurd (h.clk e) (by omega)

theorem no_dat (h : StrobesAbove last c d b x) (hlast : 2 ≤ last) : c = false ∧ d = false :=
  ⟨h.no_clk (by omega), Bool.eq_false_iff.2 fun e => absurd (h.dat e) (by omega)⟩

theorem no_btn (h : StrobesAbove last c d b x) (hlast : 3 ≤ last) : c = false ∧ d = false ∧ b = false := by
  obtain ⟨hc, hd⟩ := h.no_dat (by omega)
  exact ⟨hc, hd, Bool.eq_false_iff.2 fun e => absurd (h.btn e) (by omega)⟩

theorem no_event (h : StrobesAbove last c d b x) (hlast : 4 ≤ last) : c = false ∧ d = false ∧ b = false ∧ x = none := by
  obtain ⟨hc, hd, hb⟩ := h.no_btn (by omega)
  exact ⟨hc, hd, hb, Decidable.by_contra fun e => absurd (h.ser e) (by omega)⟩

theorem of_no_event (last : Nat) : StrobesAbove last false false false none := by
  constructor <;> simp

end StrobesAbove

/-- What carries on a sequence of cycles after the place `last` is events of places above it, and then whole cycles. -/
theorem exists_pins_of_continuesCycles {last : Nat} {is : List Instr} (h : continuesCycles last is = true) :
    ∃ c d b x vs, is = eventsOf c d b x ++ List.flatMap expandPins vs ∧ StrobesAbove last c d b x := by
  induction is generalizing last with
  | nil => exact ⟨false, false, false, none, [], rfl, .of_no_event last⟩
  | cons i is ih =>
    rw [continuesCycles] at h
    cases hplace : cyclePlace i with
    | none => simp [hplace] at h
    | some place =>
      simp only [hplace, Bool.and_eq_true] at h
      obtain ⟨hlast, hrest⟩ := h
      obtain ⟨c, d, b, x, vs, rfl, hx⟩ := ih hrest
      cases i with
      | nop => cases hplace
      | pmatch => cases hplace
      | cmatch => cases hplace
      | tick =>
        refine ⟨false, false, false, none, pinsOf c d b x :: vs, ?_, .of_no_event last⟩
        rw [List.flatMap_cons, expandPins_pinsOf]
        rfl
      | rst =>
        cases hplace
        have hreset : expandPins 0x1000 = [.rst] := rfl
        obtain ⟨rfl, rfl, rfl, rfl⟩ := hx.no_event (by decide)
        refine ⟨false, false, false, none, 0x1000 :: vs, ?_, .of_no_event last⟩
        rw [List.flatMap_cons, hreset]
        rfl
      | clk =>
        cases hplace
        have hlast : last < 1 := by simpa using hlast
        obtain rfl := hx.no_clk le_rfl
        exact ⟨true, d, b, x, vs, rfl, fun _ => hlast, fun _ => by omega, fun _ => by omega, fun _ => by omega⟩
      | dat =>
        cases hplace
        have hlast : last < 2 := by simpa using hlast
        obtain ⟨rfl, rfl⟩ := hx.no_dat le_rfl
        exact ⟨false, true, b, x, vs, rfl, nofun, fun _ => hlast, fun _ => by omega, fun _ => by omega⟩
      | btn =>
        cases hplace
        have hlast : last < 3 := by simpa using hlast
        obtain ⟨rfl, rfl, rfl⟩ := hx.no_btn le_rfl
        exact ⟨false, false, true, x, vs, rfl, nofun, nofun, fun _ => hlast, fun _ => by omega⟩
      | ser b' =>
        cases hplace
        have hlast : last < 4 := by simpa using hlast
        obtain ⟨rfl, rfl, rfl, rfl⟩ := hx.no_event le_rfl
        exact ⟨false, false, false, some b', vs, rfl, nofun, nofun, nofun, fun _ => hlast⟩

/-- Whole cycles are the operations of some pin vectors: a cycle begins with its first operation (R57). -/
theorem exists_pins_of_wholeCycles {is : List Instr} (h : wholeCycles is = true) :
    ∃ vs : List PinVector, is = vs.flatMap expandPins := by
  obtain ⟨c, d, b, x, vs, rfl, hx⟩ := exists_pins_of_continuesCycles h
  obtain ⟨rfl, rfl, rfl, rfl⟩ := hx.no_event (by decide)
  exact ⟨vs, rfl⟩

theorem admits_timed_words_iff {xs : List Input} (hwords : ∀ x ∈ xs, x.isPins = false) :
    admits .timed xs = true ↔ ∃ vs : List PinVector, xs = (vs.flatMap expandPins).map fun i => .word (encode i) := by
  constructor
  · intro h
    cases hops : operations xs with
    | some is =>
      simp only [admits, hops] at h
      obtain ⟨vs, rfl⟩ := exists_pins_of_wholeCycles h
      exact ⟨vs, (operations_eq_some_iff xs _).1 hops⟩
    | none =>
      cases xs with
      | nil => exact ⟨[], rfl⟩
      | cons x xs =>
        have hx := isPins_of_admits hops h x List.mem_cons_self
        simp [hwords x List.mem_cons_self] at hx
  · rintro ⟨vs, rfl⟩
    simp only [admits, operations_words, wholeCycles_expandPins]

theorem runOps_flatMap_expandPins (vs : List PinVector) (s : State) :
    runOps (vs.flatMap expandPins) s = .next (runCycles Config.timer vs s) := by
  induction vs generalizing s with
  | nil => rfl
  | cons v vs ih => rw [List.flatMap_cons, runOps_append _ _ _ _ (runOps_expandPins v s), ih, runCycles]

/-- Settles O51: event words are split into cycles from their end; a trace with a pin vector names no list of operations; and
the two ways of running are both the cycles in order (R57, R65). -/
theorem timedWordTracesAreCycles : Obligations.TimedWordTracesAreCycles := by
  unfold Obligations.TimedWordTracesAreCycles
  refine ⟨fun xs => admits_timed_words_iff, fun xs ⟨v, hv⟩ => ?_, fun vs s => ?_⟩
  · simp only [admits, operations_eq_none_of_pins hv, List.all_eq_true]
  · exact (run_words _ s).trans ((runOps_flatMap_expandPins vs _).trans (run_pins vs s).symm)

end Sys2Proof.Machine
end

section
/-! PROOF. The two halves of the unit, the Frame Assembler and the Bit Timer (10_state.md R10): which operations leave which
half, and the invariants (10_state.md section 9) half by half. -/

namespace Sys2Proof.Machine

/-! ### The modes (R14) -/

theorem State.inMode_idle_iff (s : State) : s.inMode .idle ↔ s.rcv = false ∧ s.snd = false := Iff.rfl

theorem State.inMode_congr {s t : State} (hrcv : t.rcv = s.rcv) (hsnd : t.snd = s.snd) {m : Mode} (h : s.inMode m) :
    t.inMode m := by
  cases m <;> simpa only [State.inMode, hrcv, hsnd] using h

theorem isIdle_of_inMode {s : State} (h : s.inMode .idle) : s.isIdle = true := (isIdle_iff s).2 h

/-! ### The two halves -/

/-- The items of the Frame Assembler are the same. -/
structure SameFrameUnit (s t : State) : Prop where
  frame : t.frame = s.frame
  pos : t.pos = s.pos
  acc : t.acc = s.acc
  rcv : t.rcv = s.rcv
  snd : t.snd = s.snd
  datEn : t.datEn = s.datEn
  serEn : t.serEn = s.serEn
  hb : t.hb = s.hb
  prog : t.prog = s.prog
  recogN : t.recogN = s.recogN

/-- The items of the Bit Timer and the records are the same. -/
structure SameTimer (s t : State) : Prop where
  perEn : t.perEn = s.perEn
  carEn : t.carEn = s.carEn
  tx : t.tx = s.tx
  preCnt : t.preCnt = s.preCnt
  perCnt : t.perCnt = s.perCnt
  carCnt : t.carCnt = s.carCnt
  records : t.records = s.records

theorem sameFrameUnit_pmatch (s : State) : SameFrameUnit s (pmatch s) := by constructor <;> simp

theorem sameFrameUnit_cmatch (s : State) : SameFrameUnit s (cmatch s) := by constructor <;> simp

theorem sameFrameUnit_tick (p : TimerParams) (s : State) : SameFrameUnit s (tick p s) := by constructor <;> simp

theorem sameTimer_dat (s : State) : SameTimer s (dat s) := by constructor <;> simp

theorem sameTimer_sendRequest (s : State) : SameTimer s (sendRequest s) := by constructor <;> simp

theorem sameTimer_ser (b : Byte) (s : State) : SameTimer s (ser b s) := by constructor <;> simp

/-- `SER b` is a send request or nothing (R82). -/
theorem ser_cases (b : Byte) (s : State) : ser b s = s ∨ (s.serEn = true ∧ b = cmdByte ∧ ser b s = sendRequest s) := by
  cases hser : s.serEn with
  | false => exact .inl (ser_of_closed hser b)
  | true =>
    by_cases hb : b = cmdByte
    · subst hb
      exact .inr ⟨rfl, rfl, ser_cmdByte_of_open hser⟩
    · exact .inl (ser_of_ne_cmdByte hb s)

/-! ### The invariants of each half -/

/-- The invariants that speak of the Frame Assembler (R32 to R35, R39, R71, R72). -/
structure FrameInv (s : State) : Prop where
  modes_exclusive : ¬(s.rcv = true ∧ s.snd = true)
  idle_pos : s.inMode .idle → s.pos = 0
  pulses_receiving : s.acc ≠ 0 → s.rcv = true
  data_path : s.datEn = !s.snd
  serial_path : s.snd = true → s.serEn = false
  progress : s.prog = (s.rcv && s.pos.val % 2 == 1)
  first_pulse : s.rcv = true → s.pos = 0 → s.acc ≠ 0
  first_element : s.rcv = true → s.pos ≠ 0 → s.frame.b0 = true

/-- The invariants that speak of the Bit Timer (R31, R37, R102). -/
structure TimerInv (p : TimerParams) (s : State) : Prop where
  sources_together : s.perEn = s.carEn
  line_rests : s.carEn = false → s.tx = false
  pre_range : s.preCnt < p.prescale
  per_range : s.perCnt < p.periodTarget
  car_range : s.carCnt < p.carrierTarget

theorem inv_iff {p : TimerParams} {s : State} : s.Inv p ↔ FrameInv s ∧ TimerInv p s := by
  constructor
  · intro h
    exact ⟨⟨h.modes_exclusive, h.idle_pos, h.pulses_receiving, h.data_path, h.serial_path, h.progress, h.first_pulse,
      h.first_element⟩, ⟨h.sources_together, h.line_rests, h.pre_range, h.per_range, h.car_range⟩⟩
  · rintro ⟨hf, ht⟩
    exact ⟨ht.sources_together, hf.modes_exclusive, hf.idle_pos, hf.pulses_receiving, hf.data_path, ht.line_rests,
      hf.serial_path, hf.progress, hf.first_pulse, hf.first_element, ht.pre_range, ht.per_range, ht.car_range⟩

theorem FrameInv.congr {s t : State} (h : FrameInv s) (hst : SameFrameUnit s t) : FrameInv t where
  modes_exclusive := by rw [hst.rcv, hst.snd]; exact h.modes_exclusive
  idle_pos := by rw [t.inMode_idle_iff, hst.rcv, hst.snd, hst.pos]; exact h.idle_pos
  pulses_receiving := by rw [hst.acc, hst.rcv]; exact h.pulses_receiving
  data_path := by rw [hst.datEn, hst.snd]; exact h.data_path
  serial_path := by rw [hst.snd, hst.serEn]; exact h.serial_path
  progress := by rw [hst.prog, hst.rcv, hst.pos]; exact h.progress
  first_pulse := by rw [hst.rcv, hst.pos, hst.acc]; exact h.first_pulse
  first_element := by rw [hst.rcv, hst.pos, hst.frame]; exact h.first_element

theorem TimerInv.congr {p : TimerParams} {s t : State} (h : TimerInv p s) (hst : SameTimer s t) : TimerInv p t where
  sources_together := by rw [hst.perEn, hst.carEn]; exact h.sources_together
  line_rests := by rw [hst.carEn, hst.tx]; exact h.line_rests
  pre_range := by rw [hst.preCnt]; exact h.pre_range
  per_range := by rw [hst.perCnt]; exact h.per_range
  car_range := by rw [hst.carCnt]; exact h.car_range

theorem frameInv_rst (s : State) : FrameInv (rst s) := by
  constructor <;> simp [rst]

theorem timerInv_rst (p : TimerParams) (s : State) : TimerInv p (rst s) where
  sources_together := rfl
  line_rests _ := rfl
  pre_range := p.prescale.pos
  per_range := p.periodTarget.pos
  car_range := p.carrierTarget.pos

/-- A data edge on the open path starts a receive at position 0 or goes on with one (R79). -/
theorem FrameInv.dat {s : State} (h : FrameInv s) : FrameInv (dat s) := by
  cases hopen : s.datEn with
  | false => rwa [dat_of_closed hopen]
  | true =>
    have hsnd : s.snd = false := by simpa [hopen] using h.data_path
    have hprog := h.progress
    have hfirst := h.first_element
    rw [dat_of_open hopen]
    have hpulse : ¬satInc8 s.acc = 0#8 := satInc8_ne_zero s.acc
    cases hrcv : s.rcv <;> constructor <;> simp_all [State.inMode, State.isIdle]

/-- An accepted request finds the accumulator and the progress indicator at rest (R80). -/
theorem FrameInv.sendRequest {s : State} (h : FrameInv s) : FrameInv (sendRequest s) := by
  cases hidle : s.isIdle with
  | false => rwa [sendRequest_of_busy hidle]
  | true =>
    obtain ⟨hrcv, -⟩ := (isIdle_iff s).1 hidle
    have hprog := h.progress
    have hacc := h.pulses_receiving
    rw [sendRequest_of_idle hidle]
    constructor <;> simp_all [State.inMode]

theorem FrameInv.ser {s : State} (h : FrameInv s) (b : Byte) : FrameInv (ser b s) := by
  obtain hser | ⟨-, -, hser⟩ := ser_cases b s
  · rwa [hser]
  · rw [hser]
    exact h.sendRequest

/-- The low bit of the position flips with every step (R71). -/
theorem succ_parity (i : BitIndex) : ((i + 1).val % 2 == 1) = !(i.val % 2 == 1) := by
  revert i; decide

theorem succ_eq_zero_iff (i : BitIndex) : i + 1 = 0 ↔ i = 3 := by
  revert i; decide

theorem ne_three_of_even {i : BitIndex} (h : i.val % 2 = 0) : i ≠ 3 := by
  revert i; decide

theorem Frame.set_b0 (f : Frame) (i : BitIndex) (b : Bool) : (f.set i b).b0 = if i = 0 then b else f.b0 := by
  fin_cases i <;> rfl

theorem resolveBit_eq_true_iff (acc : Byte) : resolveBit acc = true ↔ ¬acc = 0#8 := by
  simp [resolveBit]

/-- A clock edge while receiving: the progress indicator follows the position, which the fourth edge brings back to 0; the
first element is resolved from the pulse that started the receive (R71, R72). -/
theorem FrameInv.clk_receiving {s : State} (h : FrameInv s) (hrcv : s.rcv = true) : FrameInv (clk s) := by
  have hsnd : s.snd = false := Bool.eq_false_iff.2 fun e => h.modes_exclusive ⟨hrcv, e⟩
  have hdat : s.datEn = true := by simpa [hsnd] using h.data_path
  have hprog := h.progress
  constructor
  case idle_pos => simp [State.inMode, hrcv, hsnd, succ_eq_zero_iff]
  case data_path => simp [hrcv, hsnd, hdat]
  case progress => simpa [hrcv, hprog, succ_parity] using ne_three_of_even
  case first_pulse => simp [hrcv, succ_eq_zero_iff]
  case first_element =>
    have hpulse := h.first_pulse hrcv
    have hfirst := h.first_element hrcv
    by_cases hpos : s.pos = 0 <;> simp_all [Frame.set_b0, resolveBit_eq_true_iff]
  all_goals simp [hrcv, hsnd]

/-- A clock edge in Idle or in Sending: the position alone steps, in Sending, and the fourth edge opens the data path
(R78). -/
theorem FrameInv.clk_not_receiving {s : State} (h : FrameInv s) (hrcv : s.rcv = false) : FrameInv (clk s) := by
  have hacc : s.acc = 0 := Decidable.by_contra fun e => by simp [h.pulses_receiving e] at hrcv
  have hprog : s.prog = false := by simpa [hrcv] using h.progress
  have hdat := h.data_path
  have hser := h.serial_path
  constructor
  case idle_pos =>
    have hpos := h.idle_pos
    cases hsnd : s.snd <;> simp_all [State.inMode]
  case data_path => cases hsnd : s.snd <;> simp_all [bne]
  case serial_path => simp_all
  all_goals simp [hrcv, hacc, hprog]

theorem FrameInv.clk {s : State} (h : FrameInv s) : FrameInv (clk s) := by
  cases hrcv : s.rcv with
  | true => exact h.clk_receiving hrcv
  | false => exact h.clk_not_receiving hrcv

theorem TimerInv.clk {p : TimerParams} {s : State} (h : TimerInv p s) : TimerInv p (clk s) where
  sources_together := by simp
  line_rests := by simp
  pre_range := by
    rw [clk_preCnt]
    split
    exacts [h.pre_range, p.prescale.pos]
  per_range := by
    rw [clk_perCnt]
    split
    exacts [h.per_range, p.periodTarget.pos]
  car_range := by
    rw [clk_carCnt]
    split
    exacts [h.car_range, p.carrierTarget.pos]

theorem TimerInv.pmatch {p : TimerParams} {s : State} (h : TimerInv p s) : TimerInv p (pmatch s) where
  sources_together := by simp [← h.sources_together]
  line_rests := by
    have htogether := h.sources_together
    have hrests := h.line_rests
    cases hper : s.perEn <;> simp_all
  pre_range := by rw [pmatch_preCnt]; exact h.pre_range
  per_range := by rw [pmatch_perCnt]; exact h.per_range
  car_range := by rw [pmatch_carCnt]; exact h.car_range

theorem TimerInv.cmatch {p : TimerParams} {s : State} (h : TimerInv p s) : TimerInv p (cmatch s) where
  sources_together := by rw [cmatch_perEn, cmatch_carEn]; exact h.sources_together
  line_rests hcar := by
    rw [cmatch_carEn] at hcar
    rw [cmatch_of_disabled hcar]
    exact h.line_rests hcar
  pre_range := by rw [cmatch_preCnt]; exact h.pre_range
  per_range := by rw [cmatch_perCnt]; exact h.per_range
  car_range := by rw [cmatch_carCnt]; exact h.car_range

theorem TimerInv.tick {p : TimerParams} {s : State} (h : TimerInv p s) : TimerInv p (tick p s) where
  sources_together := by rw [tick_perEn, tick_carEn, h.sources_together]
  line_rests := by
    have hrests := h.line_rests
    have hcm := mt (@carrierMatch_carEn p s)
    cases hcar : s.carEn <;> simp_all
  pre_range := by
    rw [tick_preCnt]
    split
    exacts [countUp_lt h.pre_range, h.pre_range]
  per_range := by
    rw [tick_perCnt]
    split
    exacts [countUp_lt h.per_range, h.per_range]
  car_range := by
    rw [tick_carCnt]
    split
    exacts [countUp_lt h.car_range, h.car_range]

/-! ### The invariants as a whole -/

theorem inv_rst (p : TimerParams) (s : State) : (rst s).Inv p := inv_iff.2 ⟨frameInv_rst s, timerInv_rst p s⟩

theorem State.Inv.tick {p : TimerParams} {s : State} (h : s.Inv p) : (tick p s).Inv p := by
  obtain ⟨hframe, htimer⟩ := inv_iff.1 h
  exact inv_iff.2 ⟨hframe.congr (sameFrameUnit_tick p s), htimer.tick⟩

/-- Every operation but `TICK` keeps the invariants, whatever the timer constants. -/
theorem State.Inv.after {p : TimerParams} {i : Instr} {s : State} (hi : i ≠ .tick) (h : s.Inv p) : (after i s).Inv p := by
  obtain ⟨hframe, htimer⟩ := inv_iff.1 h
  cases i with
  | nop => exact h
  | clk => exact inv_iff.2 ⟨hframe.clk, htimer.clk⟩
  | dat => exact inv_iff.2 ⟨hframe.dat, htimer.congr (sameTimer_dat s)⟩
  | btn => exact inv_iff.2 ⟨hframe.sendRequest, htimer.congr (sameTimer_sendRequest s)⟩
  | ser b => exact inv_iff.2 ⟨hframe.ser b, htimer.congr (sameTimer_ser b s)⟩
  | pmatch => exact inv_iff.2 ⟨hframe.congr (sameFrameUnit_pmatch s), htimer.pmatch⟩
  | cmatch => exact inv_iff.2 ⟨hframe.congr (sameFrameUnit_cmatch s), htimer.cmatch⟩
  | rst => exact inv_rst p s
  | tick => exact absurd rfl hi

theorem State.Inv.cycle {p : TimerParams} {s : State} (h : s.Inv p) (v : PinVector) : (cycle p v s).Inv p :=
  cycle_keeps (P := State.Inv p) (fun _ => State.Inv.tick) (fun _ _ hi _ => State.Inv.after hi) v h

/-- With the machine's own constants every operation keeps the invariants. -/
theorem inv_after (i : Instr) {s : State} (h : s.Inv Config.timer) : (after i s).Inv Config.timer := by
  by_cases hi : i = .tick
  · subst hi
    exact h.tick
  · exact h.after hi

theorem State.Inv.withInput {p : TimerParams} {s : State} (h : s.Inv p) (xs : List Input) :
    ({ s with input := xs } : State).Inv p := by
  obtain ⟨h1, h2, h3, h4, h5, h6, h7, h8, h9, h10, h11, h12, h13⟩ := h
  exact ⟨h1, h2, h3, h4, h5, h6, h7, h8, h9, h10, h11, h12, h13⟩

/-- The inversion of a step: nothing is left to deliver, or the next input is a pin vector or the word of an operation. -/
theorem step_next_cases {s t : State} (h : step s = .next t) :
    (s.input = [] ∧ t = s) ∨
    (∃ v rest, s.input = .pins v :: rest ∧ t = cycle Config.timer v { s with input := rest }) ∨
    ∃ i rest, s.input = .word (encode i) :: rest ∧ t = after i { s with input := rest } := by
  match hin : s.input with
  | [] =>
    rw [step_nil hin, Host.Outcome.next.injEq] at h
    exact .inl ⟨rfl, h.symm⟩
  | .pins v :: rest =>
    rw [step_pins hin, Host.Outcome.next.injEq] at h
    exact .inr (.inl ⟨v, rest, rfl, h.symm⟩)
  | .word w :: rest =>
    cases hd : decode w with
    | error e =>
      rw [step_refused hin hd] at h
      cases h
    | ok i =>
      rw [step_word hin hd, Host.Outcome.next.injEq] at h
      rw [← encode_of_decode hd]
      exact .inr (.inr ⟨i, rest, rfl, h.symm⟩)

/-- Settles O31: a step is nothing, a cycle or an operation, and each keeps both halves of the invariants (R31 to R39, R71, R72,
R102). -/
theorem stepKeepsTheInvariants : Obligations.StepKeepsTheInvariants := by
  unfold Obligations.StepKeepsTheInvariants
  intro s t hs hstep
  obtain ⟨-, rfl⟩ | ⟨v, rest, -, rfl⟩ | ⟨i, rest, -, rfl⟩ := step_next_cases hstep
  · exact hs
  · exact (hs.withInput rest).cycle v
  · exact inv_after i (hs.withInput rest)

/-- Settles O30: the reset state is what `RST` makes of itself (R38). -/
theorem resetSatisfiesTheInvariants : Obligations.ResetSatisfiesTheInvariants := by
  unfold Obligations.ResetSatisfiesTheInvariants
  exact fun p => inv_rst p State.reset

/-- A counter below its target fits the width that holds the target's predecessor (R6). -/
theorem lt_two_pow_counterWidth {target : ℕ+} {n : Nat} (h : n < target) : n < 2 ^ TimerParams.counterWidth target :=
  (Nat.le_sub_one_of_lt h).trans_lt (Nat.lt_size_self _)

/-- Settles O32: each range ends at its target (R6, R23 to R25). -/
theorem countersFitTheirWidths : Obligations.CountersFitTheirWidths := by
  unfold Obligations.CountersFitTheirWidths
  exact fun p s h => ⟨lt_two_pow_counterWidth h.pre_range, lt_two_pow_counterWidth h.per_range,
    lt_two_pow_counterWidth h.car_range⟩

end Sys2Proof.Machine
end

section
/-! PROOF. What each operation writes (10_state.md R11 to R25) and where it takes the mode (40_frame_events.md R75). -/

namespace Sys2Proof.Machine

/-! ### The writers of each item -/

/-- Settles O17: `SendBit(b)` is that by definition (R92). -/
theorem sentBitGatesNothing : Obligations.SentBitGatesNothing := by
  unfold Obligations.SentBitGatesNothing
  exact fun _ _ => rfl

theorem count_burst_clk (s : State) :
    (clk s).records.count .burst = s.records.count .burst + if s.perEn then 0 else 1 := by
  rw [clk_records]
  cases s.perEn <;> cases recognizes s <;> cases !s.rcv && s.snd <;> simp

/-- Settles O35: `CLK` arms, and its other records are no burst (R84, R86). -/
theorem everyClockEdgeArmsOnce : Obligations.EveryClockEdgeArmsOnce := by
  unfold Obligations.EveryClockEdgeArmsOnce
  exact fun s => ⟨clk s, exec_eq_after .clk s, clk_perEn s, clk_carEn s, count_burst_clk s⟩

theorem recognizes_iff (s : State) :
    recognizes s = true ↔ s.rcv = true ∧ s.pos = 3 ∧ s.frame.set 3 (resolveBit s.acc) = startCode := by
  simp [recognizes, Frame.equals_iff_eq, and_assoc]

/-- Settles O34: an operation's writes are read off its fields; an event whose guard is closed writes nothing, so each case
is split by the guard (R11 to R25). -/
theorem whoWritesWhat : Obligations.WhoWritesWhat := by
  unfold Obligations.WhoWritesWhat
  intro i s t h
  obtain rfl : after i s = t := by rwa [exec_eq_after, Host.Outcome.next.injEq] at h
  cases i with
  | nop => simp [after]
  | clk =>
    have hrecog : recognizes s = true → s.rcv = true ∧ s.pos = 3 := fun hr => by
      obtain ⟨hrcv, hpos, -⟩ := (recognizes_iff s).1 hr
      exact ⟨hrcv, hpos⟩
    cases hrcv : s.rcv <;> simp_all [after]
  | dat => cases hopen : s.datEn <;> simp [after, hopen]
  | btn => simp [after, btn]
  | ser b =>
    obtain hser | ⟨-, rfl, -⟩ := ser_cases b s
    · simp [after, hser]
    · simp [after, cmdByte]
  | pmatch => cases hper : s.perEn <;> simp [after, hper]
  | cmatch => cases hcar : s.carEn <;> simp [after, hcar]
  | rst => simp [after, rst]
  | tick => simp [after]

/-! ### The mode after every operation (R75) -/

/-- The transition table: the mode after the operation, from each mode (R75). -/
def modeAfter (s : State) (m : Mode) (i : Instr) : Mode :=
  match m, i with
  | _, .rst => .idle
  | .idle, .dat => .receiving
  | .idle, .btn => .sending
  | .idle, .ser b => if s.serEn = true ∧ b = 0x61 then .sending else .idle
  | .receiving, .clk => if s.pos = 3 then .idle else .receiving
  | .sending, .clk => if s.pos = 3 then .idle else .sending
  | m, _ => m

theorem SameFrameUnit.inMode {s t : State} (h : SameFrameUnit s t) {m : Mode} (hm : s.inMode m) : t.inMode m :=
  State.inMode_congr h.rcv h.snd hm

theorem clk_inMode {s : State} {m : Mode} (hm : s.inMode m) : (clk s).inMode (modeAfter s m .clk) := by
  cases m with
  | idle =>
    obtain ⟨hrcv, hsnd⟩ := hm
    exact ⟨by simp [hrcv], by simp [hsnd]⟩
  | receiving =>
    obtain ⟨hrcv, hsnd⟩ := hm
    by_cases hpos : s.pos = 3 <;> simp [modeAfter, State.inMode, hrcv, hsnd, hpos]
  | sending =>
    obtain ⟨hrcv, hsnd⟩ := hm
    by_cases hpos : s.pos = 3 <;> simp [modeAfter, State.inMode, hrcv, hsnd, hpos]

theorem dat_inMode {s : State} (hdat : s.datEn = !s.snd) {m : Mode} (hm : s.inMode m) :
    (dat s).inMode (modeAfter s m .dat) := by
  cases m <;> obtain ⟨hrcv, hsnd⟩ := hm <;> exact ⟨by simp [hdat, hrcv, hsnd], by simp [hsnd]⟩

theorem sendRequest_inMode_of_idle {s : State} (h : s.inMode .idle) : (sendRequest s).inMode .sending := by
  rw [sendRequest_of_idle (isIdle_of_inMode h)]
  exact ⟨h.1, rfl⟩

theorem isIdle_of_receiving {s : State} (h : s.inMode .receiving) : s.isIdle = false :=
  (isIdle_eq_false_iff s).2 (.inl h.1)

theorem isIdle_of_sending {s : State} (h : s.inMode .sending) : s.isIdle = false :=
  (isIdle_eq_false_iff s).2 (.inr h.2)

theorem btn_inMode {s : State} {m : Mode} (hm : s.inMode m) : (sendRequest s).inMode (modeAfter s m .btn) := by
  cases m with
  | idle => exact sendRequest_inMode_of_idle hm
  | receiving => rwa [sendRequest_of_busy (isIdle_of_receiving hm)]
  | sending => rwa [sendRequest_of_busy (isIdle_of_sending hm)]

theorem ser_inMode {s : State} (b : Byte) {m : Mode} (hm : s.inMode m) : (ser b s).inMode (modeAfter s m (.ser b)) := by
  cases m with
  | idle =>
    by_cases hreq : s.serEn = true ∧ b = 0x61
    · obtain ⟨hser, rfl⟩ := hreq
      rw [modeAfter, if_pos ⟨hser, rfl⟩, show (0x61 : Byte) = cmdByte from rfl, ser_cmdByte_of_open hser]
      exact sendRequest_inMode_of_idle hm
    · rw [modeAfter, if_neg hreq]
      obtain hser | ⟨hser, rfl, -⟩ := ser_cases b s
      · rwa [hser]
      · exact absurd ⟨hser, rfl⟩ hreq
  | receiving => rwa [ser_of_busy (isIdle_of_receiving hm)]
  | sending => rwa [ser_of_busy (isIdle_of_sending hm)]

theorem after_inMode {s : State} (hdat : s.datEn = !s.snd) (i : Instr) {m : Mode} (hm : s.inMode m) :
    (after i s).inMode (modeAfter s m i) := by
  cases i with
  | clk => exact clk_inMode hm
  | dat => exact dat_inMode hdat hm
  | btn => exact btn_inMode hm
  | ser b => exact ser_inMode b hm
  | rst => cases m <;> exact ⟨rfl, rfl⟩
  | nop => cases m <;> exact hm
  | pmatch => cases m <;> exact (sameFrameUnit_pmatch s).inMode hm
  | cmatch => cases m <;> exact (sameFrameUnit_cmatch s).inMode hm
  | tick => cases m <;> exact (sameFrameUnit_tick Config.timer s).inMode hm

theorem inMode_cases {s : State} (h : ¬(s.rcv = true ∧ s.snd = true)) :
    s.inMode .idle ∨ s.inMode .receiving ∨ s.inMode .sending := by
  simp only [State.inMode]
  cases hrcv : s.rcv <;> cases hsnd : s.snd <;> simp_all

/-- Settles O33: each operation's row of the table by its own lemma; in Sending the data path is closed, so that `DAT` does
not start a receive (R35, R75). -/
theorem modeTransitions : Obligations.ModeTransitions := by
  unfold Obligations.ModeTransitions
  exact fun p s i hs =>
    ⟨inMode_cases hs.modes_exclusive, after i s, exec_eq_after i s, fun m hm => after_inMode hs.data_path i hm⟩

/-! ### Operations repeated (R47) -/

theorem sendRequest_sendRequest (s : State) : sendRequest (sendRequest s) = sendRequest s := by
  cases hidle : s.isIdle with
  | false => rw [sendRequest_of_busy hidle, sendRequest_of_busy hidle]
  | true =>
    have hsnd : (sendRequest s).snd = true := by simp [hidle]
    exact sendRequest_of_busy ((isIdle_eq_false_iff _).2 (.inr hsnd))

theorem ser_ser (b : Byte) (s : State) : ser b (ser b s) = ser b s := by
  obtain hser | ⟨-, -, hser⟩ := ser_cases b s
  · rw [hser, hser]
  · obtain hagain | ⟨-, -, hagain⟩ := ser_cases b (ser b s)
    · exact hagain
    · rw [hagain, hser, sendRequest_sendRequest]

/-- Settles O36: reset writes constants, a match turns its own source off, and an accepted request leaves Idle (R47). -/
theorem idempotentOperations : Obligations.IdempotentOperations := by
  unfold Obligations.IdempotentOperations
  intro i s t hi h
  obtain rfl : after i s = t := by rwa [exec_eq_after, Host.Outcome.next.injEq] at h
  rw [exec_eq_after]
  congr 1
  obtain rfl | rfl | rfl | rfl | ⟨b, rfl⟩ := hi
  · rfl
  · rfl
  · exact pmatch_of_disabled (pmatch_perEn s)
  · exact sendRequest_sendRequest s
  · exact ser_ser b s

/-! ### What only a reset undoes (R16, R22, R39) -/

theorem recogN_afterOps_of_low {es : List Instr} (hes : ∀ i ∈ es, i ≠ .rst) {s : State} (h : s.recogN = false) :
    (afterOps es s).recogN = false := by
  refine afterOps_keeps (P := fun t => t.recogN = false) (fun i hi t ht => ?_) h
  exact Bool.eq_false_iff.2 fun e => Bool.eq_false_iff.1 ht (recogN_of_after (hes i hi) e)

theorem serEn_afterOps_of_closed {es : List Instr} (hes : ∀ i ∈ es, i ≠ .rst) {s : State} (h : s.serEn = false) :
    (afterOps es s).serEn = false := by
  refine afterOps_keeps (P := fun t => t.serEn = false) (fun i hi t ht => ?_) h
  exact Bool.eq_false_iff.2 fun e => Bool.eq_false_iff.1 ht (serEn_of_after (hes i hi) e)

/-- Settles O37: no operation but `RST` raises either, along the whole run (R16, R22). -/
theorem recognitionAndClosedPathAreSticky : Obligations.RecognitionAndClosedPathAreSticky := by
  unfold Obligations.RecognitionAndClosedPathAreSticky
  exact fun es s hes => ⟨afterOps es s, runOps_eq es s, recogN_afterOps_of_low hes, serEn_afterOps_of_closed hes⟩

/-- A send closes the serial path as it starts, and no operation opens the path while a send runs on (R80, R39). -/
theorem serial_path_after (i : Instr) {s : State} (h : s.snd = true → s.serEn = false) :
    (after i s).snd = true → (after i s).serEn = false := by
  cases i with
  | nop => exact h
  | clk =>
    simp only [after, clk_snd, clk_serEn, Bool.and_eq_true, and_imp]
    exact fun hsnd _ => h hsnd
  | dat => simpa only [after, dat_snd, dat_serEn] using h
  | btn =>
    simp only [after, btn, sendRequest_snd, sendRequest_serEn]
    cases s.isIdle
    · simpa using h
    · simp
  | ser b =>
    simp only [after, ser_snd, ser_serEn]
    cases accepts b s
    · simpa using h
    · simp
  | pmatch => simpa only [after, pmatch_snd, pmatch_serEn] using h
  | cmatch => simpa only [after, cmatch_snd, cmatch_serEn] using h
  | rst => exact fun hsnd => absurd hsnd Bool.false_ne_true
  | tick => simpa only [after, tick_snd, tick_serEn] using h

/-- An operation that leaves no send under way has not closed the serial path (R80). -/
theorem serEn_after_of_no_send (i : Instr) {s : State} (hser : s.serEn = true) (hsnd : (after i s).snd = false) :
    (after i s).serEn = true := by
  cases i with
  | btn =>
    simp only [after, btn, sendRequest_snd, Bool.or_eq_false_iff] at hsnd
    simp [after, btn, hser, hsnd]
  | ser b =>
    simp only [after, ser_snd, Bool.or_eq_false_iff] at hsnd
    simp [after, hser, hsnd]
  | rst => rfl
  | nop => exact hser
  | clk => exact (clk_serEn s).trans hser
  | dat => exact (dat_serEn s).trans hser
  | pmatch => exact (pmatch_serEn s).trans hser
  | cmatch => exact (cmatch_serEn s).trans hser
  | tick => exact (tick_serEn Config.timer s).trans hser

theorem serial_path_afterOps (es : List Instr) {s : State} (h : s.snd = true → s.serEn = false) :
    (afterOps es s).snd = true → (afterOps es s).serEn = false :=
  afterOps_keeps (P := fun t => t.snd = true → t.serEn = false) (fun i _ _ => serial_path_after i) h

/-- If no beginning of a run leaves a send under way, the serial path stays open. -/
theorem serEn_afterOps_of_no_send {es : List Instr} {s : State} (hser : s.serEn = true)
    (h : ∀ es₁ es₂, es = es₁ ++ es₂ → (afterOps es₁ s).snd = false) : (afterOps es s).serEn = true := by
  induction es generalizing s with
  | nil => exact hser
  | cons i es ih =>
    refine ih (serEn_after_of_no_send i hser (h [i] es rfl)) fun es₁ es₂ he => ?_
    exact h (i :: es₁) es₂ (congrArg (i :: ·) he)

/-- Settles O38: a send on the way would have closed the path for the rest of the run; and only a send closes it (R39). -/
theorem serialPathTellsOfASend : Obligations.SerialPathTellsOfASend := by
  unfold Obligations.SerialPathTellsOfASend
  intro s t es hser hsnd hes h
  obtain rfl : afterOps es s = t := by rwa [runOps_eq, Host.Outcome.next.injEq] at h
  simp only [runOps_eq, Host.Outcome.next.injEq]
  constructor
  · rintro hopen es₁ es₂ _ rfl rfl
    rw [afterOps_append] at hopen
    have hpath := serial_path_afterOps es₁ (s := s) (fun e => by simp [hsnd] at e)
    have hes₂ : ∀ i ∈ es₂, i ≠ .rst := fun i hi => hes i (List.mem_append_right es₁ hi)
    by_contra hsend
    rw [serEn_afterOps_of_closed hes₂ (hpath (by simpa using hsend))] at hopen
    cases hopen
  · exact fun hnone => serEn_afterOps_of_no_send hser fun es₁ es₂ he => hnone es₁ es₂ _ he rfl

end Sys2Proof.Machine
end

section
/-! PROOF. The receive and the send (40_frame_events.md R76 to R80, R85, R87, R117): what the operations between two clock edges
leave alone, and the four bit periods one by one. -/

namespace Sys2Proof.Machine

/-! ### Between two clock edges -/

/-- The operation is neither a clock edge nor a reset, the two that move a receive or a send (R87, R117). -/
def WithinPeriod (i : Instr) : Prop := i ≠ .clk ∧ i ≠ .rst

/-- A receive or a send runs, and the data path is open in a receive only (R35). -/
structure Busy (s : State) : Prop where
  not_idle : s.isIdle = false
  data_path : s.datEn = true → s.rcv = true

theorem busy_of_receiving {s : State} (h : s.inMode .receiving) : Busy s := ⟨isIdle_of_receiving h, fun _ => h.1⟩

theorem busy_of_sending {s : State} (h : s.inMode .sending) (hdat : s.datEn = false) : Busy s :=
  ⟨isIdle_of_sending h, fun e => by simp [hdat] at e⟩

/-- The second state is of the same bit period as the first: nothing of the frame unit differs but the accumulator, and the
records added are ends of bursts. -/
structure SamePeriod (s t : State) : Prop where
  frame : t.frame = s.frame
  pos : t.pos = s.pos
  rcv : t.rcv = s.rcv
  snd : t.snd = s.snd
  datEn : t.datEn = s.datEn
  serEn : t.serEn = s.serEn
  prog : t.prog = s.prog
  recogN : t.recogN = s.recogN
  records : ∃ n, t.records = s.records ++ List.replicate n .burstEnd

theorem SamePeriod.refl (s : State) : SamePeriod s s :=
  ⟨rfl, rfl, rfl, rfl, rfl, rfl, rfl, rfl, 0, by simp⟩

theorem SamePeriod.trans {s t u : State} (hst : SamePeriod s t) (htu : SamePeriod t u) : SamePeriod s u where
  frame := htu.frame.trans hst.frame
  pos := htu.pos.trans hst.pos
  rcv := htu.rcv.trans hst.rcv
  snd := htu.snd.trans hst.snd
  datEn := htu.datEn.trans hst.datEn
  serEn := htu.serEn.trans hst.serEn
  prog := htu.prog.trans hst.prog
  recogN := htu.recogN.trans hst.recogN
  records := by
    obtain ⟨m, hm⟩ := hst.records
    obtain ⟨n, hn⟩ := htu.records
    exact ⟨m + n, by rw [hn, hm, List.append_assoc, List.replicate_append_replicate]⟩

theorem SamePeriod.busy {s t : State} (h : SamePeriod s t) (hs : Busy s) : Busy t where
  not_idle := by simpa only [State.isIdle, h.rcv, h.snd] using hs.not_idle
  data_path := by simpa only [h.datEn, h.rcv] using hs.data_path

theorem SamePeriod.inMode {s t : State} (h : SamePeriod s t) {m : Mode} (hm : s.inMode m) : t.inMode m :=
  State.inMode_congr h.rcv h.snd hm

theorem SamePeriod.count_recog {s t : State} (h : SamePeriod s t) :
    t.records.count .recog = s.records.count .recog := by
  obtain ⟨n, hn⟩ := h.records
  simp [hn, List.count_replicate]

@[simp] theorem sentBits_append (rs qs : List Record) : sentBits (rs ++ qs) = sentBits rs ++ sentBits qs :=
  List.filterMap_append

theorem SamePeriod.sentBits {s t : State} (h : SamePeriod s t) : sentBits t.records = sentBits s.records := by
  obtain ⟨n, hn⟩ := h.records
  have hends : Machine.sentBits (List.replicate n .burstEnd) = [] := by simp [Machine.sentBits]
  rw [hn, sentBits_append, hends, List.append_nil]

/-- The Bit Timer's operations record at most one end of a burst. -/
theorem SameFrameUnit.samePeriod {s t : State} (h : SameFrameUnit s t) (ended : Bool)
    (hrecords : t.records = s.records ++ if ended then [.burstEnd] else []) : SamePeriod s t :=
  ⟨h.frame, h.pos, h.rcv, h.snd, h.datEn, h.serEn, h.prog, h.recogN, ended.toNat, by cases ended <;> exact hrecords⟩

theorem samePeriod_dat {s : State} (hs : Busy s) : SamePeriod s (dat s) where
  frame := dat_frame s
  pos := by simp [hs.not_idle]
  rcv := by
    have hdat := hs.data_path
    cases hopen : s.datEn <;> simp_all
  snd := dat_snd s
  datEn := dat_datEn s
  serEn := dat_serEn s
  prog := dat_prog s
  recogN := dat_recogN s
  records := ⟨0, by simp⟩

theorem samePeriod_after {i : Instr} (hi : WithinPeriod i) {s : State} (hs : Busy s) : SamePeriod s (after i s) := by
  cases i with
  | clk => exact absurd rfl hi.1
  | rst => exact absurd rfl hi.2
  | nop => exact .refl s
  | dat => exact samePeriod_dat hs
  | btn =>
    rw [after, btn, sendRequest_of_busy hs.not_idle]
    exact .refl s
  | ser b =>
    rw [after, ser_of_busy hs.not_idle]
    exact .refl s
  | pmatch => exact (sameFrameUnit_pmatch s).samePeriod s.perEn (pmatch_records s)
  | cmatch => exact (sameFrameUnit_cmatch s).samePeriod false (by simp)
  | tick => exact (sameFrameUnit_tick Config.timer s).samePeriod (periodMatch Config.timer s) (tick_records _ s)

theorem samePeriod_afterOps {es : List Instr} (hes : ∀ i ∈ es, WithinPeriod i) {s : State} (hs : Busy s) :
    SamePeriod s (afterOps es s) :=
  afterOps_keeps (P := SamePeriod s) (fun i hi _ ht => ht.trans (samePeriod_after (hes i hi) (ht.busy hs))) (.refl s)

/-! ### The accumulator between two clock edges (R13, R79) -/

theorem acc_after_of_ne_dat {i : Instr} (hi : WithinPeriod i) (hdat : i ≠ .dat) (s : State) : (after i s).acc = s.acc := by
  cases i with
  | clk => exact absurd rfl hi.1
  | rst => exact absurd rfl hi.2
  | dat => exact absurd rfl hdat
  | nop => rfl
  | btn => exact sendRequest_acc s
  | ser b => exact ser_acc b s
  | pmatch => exact pmatch_acc s
  | cmatch => exact cmatch_acc s
  | tick => exact tick_acc Config.timer s

theorem satInc8_toNat (v : Byte) : (satInc8 v).toNat = min 255 (v.toNat + 1) := by
  revert v; decide

/-- On the open path every data edge is one pulse, up to 255. -/
theorem acc_afterOps_of_open {es : List Instr} (hes : ∀ i ∈ es, WithinPeriod i) {s : State} (hs : Busy s)
    (hopen : s.datEn = true) : (afterOps es s).acc.toNat = min 255 (s.acc.toNat + es.count .dat) := by
  induction es generalizing s with
  | nil =>
    have := s.acc.isLt
    simp only [afterOps_nil, List.count_nil]
    omega
  | cons i es ih =>
    have hi := hes i List.mem_cons_self
    have hperiod := samePeriod_after hi hs
    have hrest := ih (fun j hj => hes j (List.mem_cons_of_mem i hj)) (hperiod.busy hs) (hperiod.datEn.trans hopen)
    rw [afterOps_cons, hrest]
    by_cases hdat : i = .dat
    · subst hdat
      rw [after, dat_acc, if_pos hopen, satInc8_toNat, List.count_cons_self]
      omega
    · rw [acc_after_of_ne_dat hi hdat, List.count_cons_of_ne hdat]

/-- On the closed path no pulse is counted. -/
theorem acc_afterOps_of_closed {es : List Instr} (hes : ∀ i ∈ es, WithinPeriod i) {s : State} (hs : Busy s)
    (hclosed : s.datEn = false) : (afterOps es s).acc = s.acc := by
  have hkept : (afterOps es s).acc = s.acc ∧ SamePeriod s (afterOps es s) := by
    refine afterOps_keeps (P := fun t => t.acc = s.acc ∧ SamePeriod s t) (fun i hi t ⟨hacc, hperiod⟩ => ⟨?_, ?_⟩)
      ⟨rfl, .refl s⟩
    · by_cases hdat : i = .dat
      · subst hdat
        rw [after, dat_of_closed (hperiod.datEn.trans hclosed), hacc]
      · rw [acc_after_of_ne_dat (hes i hi) hdat, hacc]
    · exact hperiod.trans (samePeriod_after (hes i hi) (hperiod.busy hs))
  exact hkept.1

/-- Settles O39: without a clock edge or a reset the run stays in its bit period (R87, R117). -/
theorem stalledProtocolStaysStalled : Obligations.StalledProtocolStaysStalled := by
  unfold Obligations.StalledProtocolStaysStalled
  refine fun s es hes => ⟨fun hmode hopen => ?_, fun hmode hclosed => ?_⟩
  · have hbusy := busy_of_receiving hmode
    have hperiod := samePeriod_afterOps hes hbusy
    exact ⟨_, runOps_eq es s, hperiod.inMode hmode, hperiod.pos, hperiod.frame, hperiod.datEn.trans hopen, hperiod.serEn,
      acc_afterOps_of_open hes hbusy hopen⟩
  · have hbusy := busy_of_sending hmode hclosed
    have hperiod := samePeriod_afterOps hes hbusy
    exact ⟨_, runOps_eq es s, hperiod.inMode hmode, hperiod.pos, hperiod.frame, hperiod.datEn.trans hclosed,
      acc_afterOps_of_closed hes hbusy hclosed⟩

/-! ### The four bit periods of a receive (R77, R85) -/

/-- The state is in a receive that started from `s₀`, at position `k` with the frame `f` assembled so far and `pulse` telling
whether a pulse came since the last clock edge. -/
structure ReceivingAt (s₀ : State) (k : BitIndex) (f : Frame) (pulse : Bool) (s : State) : Prop where
  mode : s.inMode .receiving
  datEn : s.datEn = true
  serEn : s.serEn = s₀.serEn
  recogN : s.recogN = s₀.recogN
  recogs : s.records.count .recog = s₀.records.count .recog
  pos : s.pos = k
  frame : s.frame = f
  pulse : resolveBit s.acc = pulse

theorem resolveBit_eq_decide (acc : Byte) : resolveBit acc = decide (0 < acc.toNat) := by
  revert acc; decide

theorem receivingAt_dat {s : State} (hmode : s.inMode .idle) (hopen : s.datEn = true) :
    ReceivingAt s 0 s.frame true (dat s) where
  mode := ⟨by simp [hopen], by simp [hmode.2]⟩
  datEn := by simp [hopen]
  serEn := dat_serEn s
  recogN := dat_recogN s
  recogs := by rw [dat_records]
  pos := by simp [hopen, isIdle_of_inMode hmode]
  frame := dat_frame s
  pulse := by rw [dat_acc, if_pos hopen]; exact (resolveBit_eq_true_iff _).2 (satInc8_ne_zero _)

theorem ReceivingAt.afterOps {s₀ s : State} {k : BitIndex} {f : Frame} {pulse : Bool} (h : ReceivingAt s₀ k f pulse s)
    {es : List Instr} (hes : ∀ i ∈ es, WithinPeriod i) :
    ReceivingAt s₀ k f (pulse || decide (.dat ∈ es)) (afterOps es s) := by
  have hbusy := busy_of_receiving h.mode
  have hperiod := samePeriod_afterOps hes hbusy
  refine ⟨hperiod.inMode h.mode, hperiod.datEn.trans h.datEn, hperiod.serEn.trans h.serEn, hperiod.recogN.trans h.recogN,
    hperiod.count_recog.trans h.recogs, hperiod.pos.trans h.pos, hperiod.frame.trans h.frame, ?_⟩
  rw [resolveBit_eq_decide, acc_afterOps_of_open hes hbusy h.datEn, ← h.pulse, resolveBit_eq_decide, ← Bool.decide_or,
    decide_eq_decide, ← List.count_pos_iff]
  omega

theorem not_recognizes_of_pos_ne_three {s : State} (h : s.pos ≠ 3) : recognizes s = false :=
  Bool.eq_false_iff.2 fun e => h ((recognizes_iff s).1 e).2.1

theorem not_recognizes_of_not_receiving {s : State} (h : s.rcv = false) : recognizes s = false := by
  simp [recognizes, h]

theorem count_recog_clk (s : State) :
    (clk s).records.count .recog = s.records.count .recog + if recognizes s then 1 else 0 := by
  rw [clk_records]
  cases s.perEn <;> cases recognizes s <;> cases !s.rcv && s.snd <;> simp

theorem ReceivingAt.clk {s₀ s : State} {k : BitIndex} {f : Frame} {pulse : Bool} (h : ReceivingAt s₀ k f pulse s)
    (hk : k ≠ 3) : ReceivingAt s₀ (k + 1) (f.set k pulse) false (clk s) := by
  obtain ⟨⟨hrcv, hsnd⟩, hdat, hser, hrecog, hcount, rfl, rfl, rfl⟩ := h
  have hnot := not_recognizes_of_pos_ne_three hk
  exact ⟨⟨by simp [hrcv, hk], by simp [hsnd]⟩, by simp [hdat], by simp [hser], by simp [hnot, hrecog],
    by rw [count_recog_clk, hnot, hcount]; rfl, by simp [hrcv], by simp [hrcv], by simp [hrcv, resolveBit]⟩

/-- The state after the receive that started from `s₀` is complete, with the frame `f` (R77). -/
structure Received (s₀ : State) (f : Frame) (t : State) : Prop where
  frame : t.frame = f
  mode : t.inMode .idle
  pos : t.pos = 0
  acc : t.acc = 0
  datEn : t.datEn = true
  serEn : t.serEn = s₀.serEn
  recogN : t.recogN = (s₀.recogN && f != startCode)
  recogs : t.records.count .recog = s₀.records.count .recog + if f = startCode then 1 else 0

theorem ReceivingAt.clk_last {s₀ s : State} {f : Frame} {pulse : Bool} (h : ReceivingAt s₀ 3 f pulse s) :
    Received s₀ (f.set 3 pulse) (Machine.clk s) := by
  obtain ⟨⟨hrcv, hsnd⟩, hdat, hser, hrecog, hcount, hpos, rfl, rfl⟩ := h
  have hrecognizes : recognizes s = decide (s.frame.set 3 (resolveBit s.acc) = startCode) := by
    simp [recognizes, hrcv, hpos, Frame.equals_eq_decide]
  refine ⟨by simp [hrcv, hpos], ⟨by simp [hpos], by simp [hsnd]⟩, by simp [hrcv, hpos], by simp [hrcv], by simp [hdat],
    by simp [hser], ?_, ?_⟩
  · rw [clk_recogN, hrecognizes, hrecog]
    rfl
  · rw [count_recog_clk, hrecognizes, hcount]
    simp

/-- Four periods of a receive from Idle, as the states before and after the fourth clock edge. -/
theorem receive_four_periods {s : State} (hmode : s.inMode .idle) (hopen : s.datEn = true) {e0 e1 e2 e3 : List Instr}
    (hes : ∀ i ∈ e0 ++ e1 ++ e2 ++ e3, WithinPeriod i) :
    ∃ u f, runOps (.dat :: e0 ++ .clk :: e1 ++ .clk :: e2 ++ .clk :: e3) s = .next u ∧
      ReceivingAt s 3 f (decide (.dat ∈ e3)) u ∧
      f.set 3 (decide (.dat ∈ e3)) = ⟨true, decide (.dat ∈ e1), decide (.dat ∈ e2), decide (.dat ∈ e3)⟩ := by
  simp only [List.forall_mem_append] at hes
  obtain ⟨⟨⟨h0, h1⟩, h2⟩, h3⟩ := hes
  have p0 := ((receivingAt_dat hmode hopen).afterOps h0).clk (by decide)
  have p1 := (p0.afterOps h1).clk (by decide)
  have p2 := (p1.afterOps h2).clk (by decide)
  have p3 := p2.afterOps h3
  refine ⟨_, _, ?_, p3, rfl⟩
  rw [runOps_eq]
  simp only [afterOps_append, afterOps_cons, List.cons_append, after]

/-- Settles O40: the periods of a receive one after another; the fourth clock edge compares the frame (R77, R85). -/
theorem receiveAssemblesTheFrame : Obligations.ReceiveAssemblesTheFrame := by
  unfold Obligations.ReceiveAssemblesTheFrame
  intro s e0 e1 e2 e3 hmode hopen hes
  obtain ⟨u, f, hrun, hu, hf⟩ := receive_four_periods hmode hopen hes
  have ht := hu.clk_last
  rw [hf] at ht
  exact ⟨u, clk u, hrun, hu.recogN, hu.recogs, exec_eq_after .clk u, ht.frame, ht.mode, ht.pos, ht.acc,
    ht.datEn.trans hopen.symm, ht.serEn, ht.recogN, ht.recogs⟩

/-! ### The sixteen data patterns (R68) -/

/-- The data edges of one bit period. -/
def pulses (b : Bool) : List Instr := if b then [.dat] else []

theorem bitPeriod_eq (b : Bool) : bitPeriod b = pulses b ++ [.clk] := by
  cases b <;> rfl

theorem decide_dat_mem_pulses (b : Bool) : decide (.dat ∈ pulses b) = b := by
  cases b <;> rfl

theorem withinPeriod_of_mem_pulses {b : Bool} {i : Instr} (h : i ∈ pulses b) : WithinPeriod i := by
  cases b with
  | false => cases h
  | true =>
    rw [List.mem_singleton.1 h]
    exact ⟨by decide, by decide⟩

/-- A pattern that begins with 1 is received as it stands. -/
theorem received_rxFrame {s : State} (hmode : s.inMode .idle) (hopen : s.datEn = true) (b1 b2 b3 : Bool) :
    Received s ⟨true, b1, b2, b3⟩ (afterOps (rxFrame ⟨true, b1, b2, b3⟩) s) := by
  have hes : ∀ i ∈ [] ++ pulses b1 ++ pulses b2 ++ pulses b3, WithinPeriod i := by
    simp only [List.nil_append, List.forall_mem_append]
    exact ⟨⟨fun _ => withinPeriod_of_mem_pulses, fun _ => withinPeriod_of_mem_pulses⟩, fun _ => withinPeriod_of_mem_pulses⟩
  obtain ⟨u, f, hrun, hu, hf⟩ := receive_four_periods hmode hopen hes
  have hlist : rxFrame ⟨true, b1, b2, b3⟩ =
      (.dat :: [] ++ .clk :: pulses b1 ++ .clk :: pulses b2 ++ .clk :: pulses b3) ++ [.clk] := by
    simp [rxFrame, bitPeriod_eq, pulses]
  have ht := hu.clk_last
  rw [hf] at ht
  simp only [decide_dat_mem_pulses] at ht
  rw [runOps_eq, Host.Outcome.next.injEq] at hrun
  rw [hlist, afterOps_append, hrun]
  exact ht

/-- The state is in Idle, or in a receive that has not passed position `k`, and nothing has been recognized since `s₀`. -/
structure EarlyReceive (s₀ : State) (k : Nat) (s : State) : Prop where
  snd : s.snd = false
  datEn : s.datEn = true
  recogN : s.recogN = s₀.recogN
  recogs : s.records.count .recog = s₀.records.count .recog
  early : s.rcv = true → s.pos.val ≤ k

theorem EarlyReceive.dat {s₀ s : State} {k : Nat} (h : EarlyReceive s₀ k s) : EarlyReceive s₀ k (dat s) := by
  refine ⟨by simp [h.snd], by simp [h.datEn], by simp [h.recogN], by simp [h.recogs], fun _ => ?_⟩
  have hearly := h.early
  cases hrcv : s.rcv <;> simp_all [State.isIdle, h.snd, h.datEn]

theorem val_succ_le (i : BitIndex) : (i + 1).val ≤ i.val + 1 := by
  revert i; decide

theorem EarlyReceive.clk {s₀ s : State} {k : Nat} (h : EarlyReceive s₀ k s) (hk : k < 3) :
    EarlyReceive s₀ (k + 1) (clk s) := by
  have hnot : recognizes s = false := Bool.eq_false_iff.2 fun e => by
    obtain ⟨hrcv, hpos, -⟩ := (recognizes_iff s).1 e
    have hle := h.early hrcv
    rw [hpos] at hle
    exact absurd hle (by simpa using hk)
  refine ⟨by simp [h.snd], by simp [h.datEn], by simp [hnot, h.recogN], by rw [count_recog_clk, hnot, h.recogs]; rfl, ?_⟩
  intro hrcv'
  have hrcv : s.rcv = true := by
    rw [clk_rcv] at hrcv'
    exact (Bool.and_eq_true_iff.1 hrcv').1
  have hle := h.early hrcv
  have hsucc := val_succ_le s.pos
  rw [clk_pos, hrcv, Bool.true_or, if_pos rfl]
  omega

theorem EarlyReceive.bitPeriod {s₀ s : State} {k : Nat} (h : EarlyReceive s₀ k s) (hk : k < 3) (b : Bool) :
    EarlyReceive s₀ (k + 1) (afterOps (bitPeriod b) s) := by
  cases b with
  | false => exact h.clk hk
  | true => exact h.dat.clk hk

theorem earlyReceive_clk_of_idle {s : State} (hmode : s.inMode .idle) (hopen : s.datEn = true) :
    EarlyReceive s 0 (clk s) := by
  obtain ⟨hrcv, hsnd⟩ := hmode
  have hnot := not_recognizes_of_not_receiving hrcv
  exact ⟨by simp [hsnd], by simp [hopen], by simp [hnot], by rw [count_recog_clk, hnot]; rfl, by simp [hrcv]⟩

/-- A pattern that begins with 0 leaves no time for a fourth bit: its later pulses start a receive too late. -/
theorem earlyReceive_rxFrame {s : State} (hmode : s.inMode .idle) (hopen : s.datEn = true) (b1 b2 b3 : Bool) :
    EarlyReceive s 3 (afterOps (rxFrame ⟨false, b1, b2, b3⟩) s) := by
  have hperiods := (((earlyReceive_clk_of_idle hmode hopen).bitPeriod (by decide) b1).bitPeriod (by decide) b2).bitPeriod
    (by decide) b3
  simp only [rxFrame, afterOps_append]
  exact hperiods

/-- Settles O41: a pattern with first bit 1 is received as it stands, and one with first bit 0 completes no receive (S2,
S3). -/
theorem onlyTheStartCodeIsRecognized : Obligations.OnlyTheStartCodeIsRecognized := by
  unfold Obligations.OnlyTheStartCodeIsRecognized
  rintro ⟨b0, b1, b2, b3⟩ s hmode hopen hhigh
  refine ⟨_, runOps_eq _ s, ?_⟩
  cases b0 with
  | true =>
    have ht := received_rxFrame hmode hopen b1 b2 b3
    exact ⟨by simp [ht.recogN, hhigh], ht.recogs⟩
  | false =>
    have ht := earlyReceive_rxFrame hmode hopen b1 b2 b3
    have hother : (⟨false, b1, b2, b3⟩ : Frame) ≠ startCode := by simp [startCode]
    exact ⟨by simp [ht.recogN, hhigh, hother], by simp [ht.recogs, hother]⟩

/-! ### The four bit periods of a send (R78, R92) -/

/-- The state is in a send that was requested in `s₀`, at position `k` with the bits `bits` handed to the Bit Timer so far. -/
structure SendingAt (s₀ : State) (k : BitIndex) (bits : List Bool) (s : State) : Prop where
  mode : s.inMode .sending
  datEn : s.datEn = false
  serEn : s.serEn = false
  pos : s.pos = k
  frame : s.frame = s₀.frame
  acc : s.acc = s₀.acc
  prog : s.prog = s₀.prog
  recogN : s.recogN = s₀.recogN
  sent : sentBits s.records = sentBits s₀.records ++ bits

theorem sendingAt_sendRequest {s : State} (hmode : s.inMode .idle) : SendingAt s 0 [] (sendRequest s) := by
  rw [sendRequest_of_idle (isIdle_of_inMode hmode)]
  exact ⟨⟨hmode.1, rfl⟩, rfl, rfl, rfl, rfl, rfl, rfl, rfl, (List.append_nil _).symm⟩

theorem SendingAt.afterOps {s₀ s : State} {k : BitIndex} {bits : List Bool} (h : SendingAt s₀ k bits s) {es : List Instr}
    (hes : ∀ i ∈ es, WithinPeriod i) : SendingAt s₀ k bits (afterOps es s) := by
  have hbusy := busy_of_sending h.mode h.datEn
  have hperiod := samePeriod_afterOps hes hbusy
  exact ⟨hperiod.inMode h.mode, hperiod.datEn.trans h.datEn, hperiod.serEn.trans h.serEn, hperiod.pos.trans h.pos,
    hperiod.frame.trans h.frame, (acc_afterOps_of_closed hes hbusy h.datEn).trans h.acc, hperiod.prog.trans h.prog,
    hperiod.recogN.trans h.recogN, hperiod.sentBits.trans h.sent⟩

/-- A clock edge in Sending hands the bit at the position to the Bit Timer (R78). -/
theorem sentBits_clk_of_sending {s : State} (h : s.inMode .sending) :
    sentBits (clk s).records = sentBits s.records ++ [startCode.get s.pos] := by
  obtain ⟨hrcv, hsnd⟩ := h
  have hnot := not_recognizes_of_not_receiving hrcv
  rw [clk_records]
  cases s.perEn <;> simp [hrcv, hsnd, hnot, sentBits]

theorem SendingAt.clk {s₀ s : State} {k : BitIndex} {bits : List Bool} (h : SendingAt s₀ k bits s) (hk : k ≠ 3) :
    SendingAt s₀ (k + 1) (bits ++ [startCode.get k]) (clk s) := by
  have hnot := not_recognizes_of_not_receiving h.mode.1
  have hsent := sentBits_clk_of_sending h.mode
  obtain ⟨⟨hrcv, hsnd⟩, hdat, hser, rfl, hframe, hacc, hprog, hrecog, hbits⟩ := h
  exact ⟨⟨by simp [hrcv], by simp [hsnd, hk]⟩, by simp [hdat, hk], by simp [hser], by simp [hsnd], by simp [hrcv, hframe],
    by simp [hrcv, hacc], by simp [hrcv, hprog], by simp [hnot, hrecog], by rw [hsent, hbits, List.append_assoc]⟩

/-- The state after the send that was requested in `s₀` is complete (R78). -/
structure Sent (s₀ : State) (t : State) : Prop where
  sent : sentBits t.records = sentBits s₀.records ++ [true, true, true, false]
  mode : t.inMode .idle
  pos : t.pos = 0
  datEn : t.datEn = true
  serEn : t.serEn = false
  frame : t.frame = s₀.frame
  acc : t.acc = s₀.acc
  recogN : t.recogN = s₀.recogN
  prog : t.prog = s₀.prog

theorem SendingAt.clk_last {s₀ s : State} (h : SendingAt s₀ 3 [true, true, true] s) : Sent s₀ (Machine.clk s) := by
  have hnot := not_recognizes_of_not_receiving h.mode.1
  have hsent := sentBits_clk_of_sending h.mode
  obtain ⟨⟨hrcv, hsnd⟩, hdat, hser, hpos, hframe, hacc, hprog, hrecog, hbits⟩ := h
  refine ⟨?_, ⟨by simp [hrcv], by simp [hrcv, hpos]⟩, by simp [hsnd, hpos], by simp [hrcv, hsnd, hpos], by simp [hser],
    by simp [hrcv, hframe], by simp [hrcv, hacc], by simp [hnot, hrecog], by simp [hrcv, hprog]⟩
  rw [hsent, hbits, hpos, List.append_assoc]
  rfl

theorem sendingAt_request {s : State} (hmode : s.inMode .idle) {request : Instr}
    (hreq : request = .btn ∨ (request = .ser 0x61 ∧ s.serEn = true)) : SendingAt s 0 [] (after request s) := by
  obtain rfl | ⟨rfl, hser⟩ := hreq
  · exact sendingAt_sendRequest hmode
  · rw [after, show (0x61 : Byte) = cmdByte from rfl, ser_cmdByte_of_open hser]
    exact sendingAt_sendRequest hmode

/-- Settles O42: the periods of a send one after another; each clock edge sends the next bit of the start code (R78, R92). -/
theorem sendPresentsTheStartCode : Obligations.SendPresentsTheStartCode := by
  unfold Obligations.SendPresentsTheStartCode
  intro s request e0 e1 e2 e3 hmode hreq hes
  simp only [List.forall_mem_append] at hes
  obtain ⟨⟨⟨h0, h1⟩, h2⟩, h3⟩ := hes
  have p0 := ((sendingAt_request hmode hreq).afterOps h0).clk (by decide)
  have p1 := (p0.afterOps h1).clk (by decide)
  have p2 := (p1.afterOps h2).clk (by decide)
  have ht := (p2.afterOps h3).clk_last
  refine ⟨_, ?_, ht.sent, ht.mode, ht.pos, ht.datEn, ht.serEn, ht.frame, ht.acc, ht.recogN, ht.prog⟩
  rw [runOps_eq]
  simp only [afterOps_append, afterOps_cons, afterOps_nil, List.cons_append, after]

end Sys2Proof.Machine
end

section
/-! PROOF. What cannot be observed: frame elements not yet written (10_state.md R11, R41), and of the accumulator all but
whether it is zero (R13). Two states that agree on the rest are followed through every operation. -/

namespace Sys2Proof.Machine

/-! ### The unread part of the frame buffer -/

theorem AgreeOnReadFrame.eq_withFrame {s u : State} (h : AgreeOnReadFrame s u) : u = { s with frame := u.frame } := by
  rw [← h.others]

theorem AgreeOnReadFrame.input {s u : State} (h : AgreeOnReadFrame s u) : u.input = s.input := by
  rw [h.eq_withFrame]

theorem AgreeOnReadFrame.out {s u : State} (h : AgreeOnReadFrame s u) : u.out = s.out := by
  rw [h.eq_withFrame]
  rfl

theorem AgreeOnReadFrame.records {s u : State} (h : AgreeOnReadFrame s u) : u.records = s.records := by
  rw [h.eq_withFrame]

theorem AgreeOnReadFrame.withInput {s u : State} (h : AgreeOnReadFrame s u) (xs : List Input) :
    AgreeOnReadFrame { s with input := xs } { u with input := xs } :=
  ⟨congrArg (fun t : State => { t with input := xs }) h.others, h.written⟩

/-- Frames that agree below a position agree up to it once both have the same element there. -/
theorem Frame.set_get_congr {f g : Frame} {k : BitIndex} (h : ∀ j < k, f.get j = g.get j) (b : Bool) :
    ∀ j ≤ k, (f.set k b).get j = (g.set k b).get j := by
  intro j hj
  obtain hlt | rfl := lt_or_eq_of_le hj
  · rw [f.get_set_other b hlt.ne, g.get_set_other b hlt.ne, h j hlt]
  · rw [f.get_set_same, g.get_set_same]

/-- The comparison with the start code reads elements 0 to 2 and the bit just resolved (R76). -/
theorem recognizes_withFrame {s : State} {f : Frame} (h : s.rcv = true → ∀ j < s.pos, f.get j = s.frame.get j) :
    recognizes { s with frame := f } = recognizes s := by
  by_cases hlast : s.rcv = true ∧ s.pos = 3
  · obtain ⟨hrcv, hpos⟩ := hlast
    have hset : f.set 3 (resolveBit s.acc) = s.frame.set 3 (resolveBit s.acc) := by
      rw [Frame.eq_iff_get]
      exact fun j => Frame.set_get_congr (hpos ▸ h hrcv) _ j (Fin.le_last j)
    simp only [recognizes, hset]
  · have hnot : (s.rcv && s.pos == 3) = false := by simpa using hlast
    simp only [recognizes, hnot, Bool.false_and]

theorem le_of_lt_succ {j k : BitIndex} (hk : k ≠ 3) (h : j < k + 1) : j ≤ k := by
  revert j k; decide

theorem AgreeOnReadFrame.clk {s u : State} (h : AgreeOnReadFrame s u) : AgreeOnReadFrame (clk s) (clk u) := by
  have hwritten := h.written
  have hrecognizes := recognizes_withFrame hwritten
  rw [h.eq_withFrame]
  refine ⟨by apply State.ext <;> simp [hrecognizes], fun hrcv' j hj => ?_⟩
  obtain ⟨hrcv, hpos⟩ : s.rcv = true ∧ s.pos ≠ 3 := by simpa using hrcv'
  rw [clk_pos, hrcv, Bool.true_or, if_pos rfl] at hj
  simpa [hrcv] using Frame.set_get_congr (hwritten hrcv) (resolveBit s.acc) j (le_of_lt_succ hpos hj)

/-- No operation but `CLK` and `RST` reads or writes the frame buffer. -/
theorem after_withFrame {i : Instr} (hi : WithinPeriod i) (s : State) (f : Frame) :
    after i { s with frame := f } = { after i s with frame := f } := by
  cases i with
  | clk => exact absurd rfl hi.1
  | rst => exact absurd rfl hi.2
  | nop => rfl
  | dat => apply State.ext <;> simp [after, State.isIdle]
  | btn => apply State.ext <;> simp [after, btn, State.isIdle]
  | ser b => apply State.ext <;> simp [after, accepts, State.isIdle]
  | pmatch => apply State.ext <;> simp [after]
  | cmatch => apply State.ext <;> simp [after]
  | tick => apply State.ext <;> simp [after, periodMatch, prescaledCount, carrierMatch]

theorem frame_after {i : Instr} (hi : WithinPeriod i) (s : State) : (after i s).frame = s.frame := by
  rw [show after i s = after i { s with frame := s.frame } from rfl, after_withFrame hi]

theorem rcv_after_of_ne_dat {i : Instr} (hi : WithinPeriod i) (hdat : i ≠ .dat) (s : State) : (after i s).rcv = s.rcv := by
  cases i with
  | clk => exact absurd rfl hi.1
  | rst => exact absurd rfl hi.2
  | dat => exact absurd rfl hdat
  | nop => rfl
  | btn => exact sendRequest_rcv s
  | ser b => exact ser_rcv b s
  | pmatch => exact pmatch_rcv s
  | cmatch => exact cmatch_rcv s
  | tick => exact tick_rcv Config.timer s

/-- A receive after an operation other than `CLK` is the one before it, at its position, or one just started at position 0;
were the data path open in Sending, a `DAT` would start one elsewhere (R35). -/
theorem receiving_after_cases {i : Instr} (hi : WithinPeriod i) {s : State} (hpath : s.datEn = !s.snd)
    (h : (after i s).rcv = true) : (s.rcv = true ∧ (after i s).pos = s.pos) ∨ (after i s).pos = 0 := by
  cases hidle : s.isIdle with
  | true =>
    obtain ⟨hrcv, hsnd⟩ := (isIdle_iff s).1 hidle
    by_cases hdat : i = .dat
    · subst hdat
      exact .inr (by simp [after, hpath, hsnd, hidle])
    · rw [rcv_after_of_ne_dat hi hdat, hrcv] at h
      cases h
  | false =>
    have hbusy : Busy s := by
      refine ⟨hidle, fun hopen => ((isIdle_eq_false_iff s).1 hidle).resolve_right ?_⟩
      simpa [hopen] using hpath
    have hperiod := samePeriod_after hi hbusy
    exact .inl ⟨hperiod.rcv ▸ h, hperiod.pos⟩

theorem AgreeOnReadFrame.after_withinPeriod {i : Instr} (hi : WithinPeriod i) {s u : State} (hpath : s.datEn = !s.snd)
    (h : AgreeOnReadFrame s u) : AgreeOnReadFrame (after i s) (after i u) := by
  have hwritten := h.written
  rw [h.eq_withFrame, after_withFrame hi s u.frame]
  refine ⟨rfl, fun hrcv' j hj => ?_⟩
  obtain ⟨hrcv, hpos⟩ | hpos := receiving_after_cases hi hpath hrcv'
  · rw [frame_after hi]
    exact hwritten hrcv j (hpos ▸ hj)
  · exact absurd (hpos ▸ hj) (Fin.not_lt_zero j)

/-- Every operation keeps the agreement: reset makes the frames equal, a clock edge writes both alike (R41). -/
theorem AgreeOnReadFrame.after {s u : State} (hpath : s.datEn = !s.snd) (h : AgreeOnReadFrame s u) (i : Instr) :
    AgreeOnReadFrame (after i s) (after i u) := by
  by_cases hclk : i = .clk
  · subst hclk
    exact h.clk
  · by_cases hrst : i = .rst
    · subst hrst
      rw [h.eq_withFrame]
      exact ⟨rfl, fun _ _ _ => rfl⟩
    · exact h.after_withinPeriod ⟨hclk, hrst⟩ hpath

/-- The relation that runs keep: the first state satisfies the invariants, and the second agrees with it. -/
def AgreeWithinInv (s u : State) : Prop := s.Inv Config.timer ∧ AgreeOnReadFrame s u

theorem AgreeWithinInv.after {s u : State} (h : AgreeWithinInv s u) (i : Instr) :
    AgreeWithinInv (Machine.after i s) (Machine.after i u) :=
  ⟨inv_after i h.1, h.2.after h.1.data_path i⟩

theorem AgreeWithinInv.cycle {s u : State} (h : AgreeWithinInv s u) (v : PinVector) :
    AgreeWithinInv (cycle Config.timer v s) (cycle Config.timer v u) :=
  cycle_keeps_rel (fun _ _ hr => hr.after .tick) (fun i _ _ _ hr => hr.after i) v h

/-- One step of both states: both are refused alike, or both go on and agree. -/
theorem step_of_agree {s u : State} (h : AgreeWithinInv s u) :
    (∃ r, step s = .refused r ∧ step u = .refused r) ∨
    ∃ t v, step s = .next t ∧ step u = .next v ∧ AgreeOnReadFrame t v := by
  have hrest (rest : List Input) : AgreeWithinInv { s with input := rest } { u with input := rest } :=
    ⟨h.1.withInput rest, h.2.withInput rest⟩
  have hu := h.2.input
  match hin : s.input with
  | [] => exact .inr ⟨s, u, step_nil hin, step_nil (hu.trans hin), h.2⟩
  | .pins v :: rest => exact .inr ⟨_, _, step_pins hin, step_pins (hu.trans hin), ((hrest rest).cycle v).2⟩
  | .word w :: rest =>
    cases hd : decode w with
    | ok i => exact .inr ⟨_, _, step_word hin hd, step_word (hu.trans hin) hd, ((hrest rest).after i).2⟩
    | error e => exact .inl ⟨_, step_refused hin hd, step_refused (hu.trans hin) hd⟩

/-- Settles O55: the step lemma above, read in both directions; pins and records are not of the frame buffer (R11, R41). -/
theorem stepsKeepUnreadFrameUnobservable : Obligations.StepsKeepUnreadFrameUnobservable := by
  unfold Obligations.StepsKeepUnreadFrameUnobservable
  intro s u hs h
  obtain ⟨r, hsr, hur⟩ | ⟨t, v, hst, huv, htv⟩ := step_of_agree ⟨hs, h⟩
  · simp [hsr, hur]
  · refine ⟨fun r hr => by simp [hst] at hr, fun t' ht' => ?_⟩
    obtain rfl : t = t' := by rwa [hst, Host.Outcome.next.injEq] at ht'
    exact ⟨v, huv, htv, htv.out, htv.records⟩

/-- Settles O43: in Idle no frame element is still to be read, and runs keep the agreement (R11). -/
theorem idleFrameIsUnobservable : Obligations.IdleFrameIsUnobservable := by
  unfold Obligations.IdleFrameIsUnobservable
  intro s f es hs hidle
  have hstart : AgreeWithinInv s { s with frame := f } := ⟨hs, rfl, fun hrcv => by simp [hidle.1] at hrcv⟩
  obtain ⟨-, hend⟩ := afterOps_keeps_rel (R := AgreeWithinInv) (is := es) (fun i _ _ _ h => h.after i) hstart
  exact ⟨_, _, runOps_eq es s, runOps_eq es _, hend.others, hend.out, hend.records⟩

/-! ### The accumulator but for whether it is zero -/

/-- The two states differ in the accumulator alone, and agree on whether it is zero (R13). -/
structure AgreeOnZeroAcc (s u : State) : Prop where
  others : { u with acc := s.acc } = s
  zero : u.acc = 0 ↔ s.acc = 0

theorem AgreeOnZeroAcc.eq_withAcc {s u : State} (h : AgreeOnZeroAcc s u) : u = { s with acc := u.acc } := by
  rw [← h.others]

theorem AgreeOnZeroAcc.resolveBit {s u : State} (h : AgreeOnZeroAcc s u) :
    Machine.resolveBit u.acc = Machine.resolveBit s.acc := by
  rw [Bool.eq_iff_iff, resolveBit_eq_true_iff, resolveBit_eq_true_iff]
  exact h.zero.not

theorem AgreeOnZeroAcc.clk {s u : State} (h : AgreeOnZeroAcc s u) : AgreeOnZeroAcc (clk s) (clk u) := by
  have hbit := h.resolveBit
  have hzero := h.zero
  rw [h.eq_withAcc]
  refine ⟨by apply State.ext <;> simp [recognizes, hbit], ?_⟩
  cases hrcv : s.rcv with
  | false => simpa [hrcv] using hzero
  | true => simp [hrcv]

theorem AgreeOnZeroAcc.dat {s u : State} (h : AgreeOnZeroAcc s u) : AgreeOnZeroAcc (dat s) (dat u) := by
  have hzero := h.zero
  rw [h.eq_withAcc]
  refine ⟨by apply State.ext <;> simp [State.isIdle], ?_⟩
  cases hopen : s.datEn with
  | false => simpa [hopen] using hzero
  | true =>
    simp only [dat_acc, hopen, if_true]
    exact iff_of_false (satInc8_ne_zero _) (satInc8_ne_zero _)

/-- No operation but `CLK`, `DAT` and `RST` reads or writes the accumulator. -/
theorem after_withAcc {i : Instr} (hi : WithinPeriod i) (hdat : i ≠ .dat) (s : State) (a : Byte) :
    after i { s with acc := a } = { after i s with acc := a } := by
  cases i with
  | clk => exact absurd rfl hi.1
  | rst => exact absurd rfl hi.2
  | dat => exact absurd rfl hdat
  | nop => rfl
  | btn => apply State.ext <;> simp [after, btn, State.isIdle]
  | ser b => apply State.ext <;> simp [after, accepts, State.isIdle]
  | pmatch => apply State.ext <;> simp [after]
  | cmatch => apply State.ext <;> simp [after]
  | tick => apply State.ext <;> simp [after, periodMatch, prescaledCount, carrierMatch]

theorem AgreeOnZeroAcc.after {s u : State} (h : AgreeOnZeroAcc s u) (i : Instr) :
    AgreeOnZeroAcc (after i s) (after i u) := by
  by_cases hclk : i = .clk
  · subst hclk
    exact h.clk
  by_cases hdat : i = .dat
  · subst hdat
    exact h.dat
  by_cases hrst : i = .rst
  · subst hrst
    rw [h.eq_withAcc]
    exact ⟨rfl, Iff.rfl⟩
  · have hzero := h.zero
    have hi : WithinPeriod i := ⟨hclk, hrst⟩
    rw [h.eq_withAcc, after_withAcc hi hdat s u.acc]
    exact ⟨rfl, by rw [acc_after_of_ne_dat hi hdat]; exact hzero⟩

/-- Settles O44: a clock edge resolves the accumulator to a bit, a data edge never leaves it 0 (R13). -/
theorem onlyZeroOrNotOfTheAccumulatorMatters : Obligations.OnlyZeroOrNotOfTheAccumulatorMatters := by
  unfold Obligations.OnlyZeroOrNotOfTheAccumulatorMatters
  intro s a es ha
  have hstart : AgreeOnZeroAcc s { s with acc := a } := ⟨rfl, ha⟩
  have hend := afterOps_keeps_rel (R := AgreeOnZeroAcc) (is := es) (fun i _ _ _ h => h.after i) hstart
  exact ⟨_, _, runOps_eq es s, runOps_eq es _, hend.others, hend.zero⟩

end Sys2Proof.Machine
end

section
/-! PROOF. The burst (41_bit_timer.md R97 to R99): the counters of an armed timer tell how many cycles it has run, no event but
a reset disturbs it, and it ends in its last cycle. -/

namespace Sys2Proof.Machine

/-! ### The timer off and the timer at a cycle of a burst -/

/-- Both sources are off and the line is at rest (R31, R37). -/
structure TimerOff (s : State) : Prop where
  perEn : s.perEn = false
  carEn : s.carEn = false
  tx : s.tx = false

theorem timerOff_rst (s : State) : TimerOff (rst s) := ⟨rfl, rfl, rfl⟩

theorem burstOnTime_iff {p : TimerParams} {s : State} :
    s.BurstOnTime p ↔ TimerOff s ∨ ∃ n, n < p.burstCycles ∧ s.BurstAt p n :=
  or_congr_left ⟨fun ⟨hper, hcar, htx⟩ => ⟨hper, hcar, htx⟩, fun ⟨hper, hcar, htx⟩ => ⟨hper, hcar, htx⟩⟩

theorem TimerOff.congr {s t : State} (h : TimerOff s) (hst : SameTimer s t) : TimerOff t :=
  ⟨hst.perEn.trans h.perEn, hst.carEn.trans h.carEn, hst.tx.trans h.tx⟩

theorem State.BurstAt.congr {p : TimerParams} {n : Nat} {s t : State} (h : s.BurstAt p n) (hst : SameTimer s t) :
    t.BurstAt p n :=
  ⟨hst.perEn.trans h.perEn, hst.carEn.trans h.carEn, hst.preCnt.trans h.preCnt, hst.perCnt.trans h.perCnt,
    hst.carCnt.trans h.carCnt, hst.tx.trans h.tx⟩

theorem burstOnTime_congr {p : TimerParams} {s t : State} (h : s.BurstOnTime p) (hst : SameTimer s t) :
    t.BurstOnTime p := by
  obtain hoff | ⟨n, hn, hat⟩ := burstOnTime_iff.1 h
  · exact burstOnTime_iff.2 (.inl (hoff.congr hst))
  · exact burstOnTime_iff.2 (.inr ⟨n, hn, hat.congr hst⟩)

theorem burstCycles_pos (p : TimerParams) : 0 < p.burstCycles := Nat.mul_pos p.prescale.pos p.periodTarget.pos

/-! ### One count of a burst (R97, R98) -/

/-- The last of `a * b` numbers is the last of its `a`-block, which is the last block. -/
theorem last_of_block_iff {a b n : Nat} (ha : 0 < a) : n % a + 1 = a ∧ n / a + 1 = b ↔ n + 1 = a * b := by
  constructor
  · rintro ⟨hmod, rfl⟩
    have hn := Nat.div_add_mod n a
    rw [Nat.mul_succ]
    omega
  · intro hn
    obtain ⟨c, rfl⟩ : ∃ c, b = c + 1 := Nat.exists_eq_succ_of_ne_zero (by rintro rfl; omega)
    obtain rfl : n = a * c + (a - 1) := by rw [Nat.mul_succ] at hn; omega
    have hlt : a - 1 < a := by omega
    rw [Nat.mul_add_mod, Nat.mul_add_div ha, Nat.mod_eq_of_lt hlt, Nat.div_eq_of_lt hlt]
    omega

theorem prescaledCount_of_burstAt {p : TimerParams} {n : Nat} {s : State} (h : s.BurstAt p n) :
    prescaledCount p s = atMatch p.prescale (n % p.prescale) := by
  rw [prescaledCount, h.perEn, h.preCnt, Bool.true_and]

/-- The period match comes in the last cycle of the burst (R97). -/
theorem periodMatch_of_burstAt {p : TimerParams} {n : Nat} {s : State} (h : s.BurstAt p n) :
    periodMatch p s = true ↔ n + 1 = p.burstCycles := by
  rw [periodMatch, prescaledCount_of_burstAt h, h.perCnt, Bool.and_eq_true, atMatch_iff, atMatch_iff]
  exact last_of_block_iff p.prescale.pos

theorem carrierMatch_of_burstAt {p : TimerParams} {n : Nat} {s : State} (h : s.BurstAt p n) :
    carrierMatch p s = atMatch p.carrierTarget (n % p.carrierTarget) := by
  rw [carrierMatch, h.carEn, h.carCnt, Bool.true_and]

/-- Without a period match, the period counter counts the prescaler's matches and does not wrap (R97). -/
theorem perCnt_tick_of_burstAt {p : TimerParams} {n : Nat} {s : State} (h : s.BurstAt p n) (hn : n + 1 ≠ p.burstCycles) :
    (tick p s).perCnt = (n + 1) / p.prescale := by
  have hmatch : periodMatch p s = false := Bool.eq_false_iff.2 (mt (periodMatch_of_burstAt h).1 hn)
  rw [periodMatch, prescaledCount_of_burstAt h, h.perCnt] at hmatch
  rw [tick_perCnt, prescaledCount_of_burstAt h, h.perCnt, succ_div_target]
  cases hpre : atMatch p.prescale (n % p.prescale) with
  | false => simp
  | true => simp_all [countUp]

/-- The line has toggled once more exactly at a carrier match (R98). -/
theorem tx_tick_of_burstAt {p : TimerParams} {n : Nat} {s : State} (h : s.BurstAt p n) (hn : n + 1 ≠ p.burstCycles) :
    (tick p s).tx = decide ((n + 1) / p.carrierTarget % 2 = 1) := by
  have hmatch : periodMatch p s = false := Bool.eq_false_iff.2 (mt (periodMatch_of_burstAt h).1 hn)
  rw [tick_tx, hmatch, carrierMatch_of_burstAt h, h.tx, succ_div_target]
  cases atMatch p.carrierTarget (n % p.carrierTarget) with
  | false => simp
  | true =>
    rw [Bool.not_false, Bool.true_and, Bool.xor_true, ← decide_not, if_pos rfl, decide_eq_decide]
    omega

theorem State.BurstAt.tick {p : TimerParams} {n : Nat} {s : State} (h : s.BurstAt p n) (hn : n + 1 ≠ p.burstCycles) :
    (tick p s).BurstAt p (n + 1) := by
  have hmatch : periodMatch p s = false := Bool.eq_false_iff.2 (mt (periodMatch_of_burstAt h).1 hn)
  exact ⟨by simp [h.perEn, hmatch], by simp [h.carEn, hmatch], by rw [tick_preCnt, h.perEn, h.preCnt, if_pos rfl, countUp_mod],
    perCnt_tick_of_burstAt h hn, by rw [tick_carCnt, h.carEn, h.carCnt, if_pos rfl, countUp_mod], tx_tick_of_burstAt h hn⟩

/-- A period match rests the line and disables both sources (R93). -/
theorem timerOff_tick {p : TimerParams} {s : State} (h : periodMatch p s = true) : TimerOff (tick p s) :=
  ⟨by simp [h], by simp [h], by simp [h]⟩

theorem burstOnTime_tick {p : TimerParams} {s : State} (h : s.BurstOnTime p) : (tick p s).BurstOnTime p := by
  obtain hoff | ⟨n, hn, hat⟩ := burstOnTime_iff.1 h
  · rwa [tick_of_disabled p hoff.perEn hoff.carEn]
  · rw [burstOnTime_iff]
    by_cases hlast : n + 1 = p.burstCycles
    · exact .inl (timerOff_tick ((periodMatch_of_burstAt hat).2 hlast))
    · exact .inr ⟨n + 1, by omega, hat.tick hlast⟩

/-! ### The other operations (R90, R93, R99) -/

theorem State.BurstAt.clk {p : TimerParams} {n : Nat} {s : State} (h : s.BurstAt p n) : (clk s).BurstAt p n :=
  ⟨clk_perEn s, clk_carEn s, by simp [h.perEn, h.preCnt], by simp [h.perEn, h.perCnt], by simp [h.carEn, h.carCnt],
    by simp [h.tx]⟩

/-- A clock edge arms the timer with its counters at 0 (R90). -/
theorem burstAt_zero_clk (p : TimerParams) {s : State} (h : TimerOff s) : (clk s).BurstAt p 0 :=
  ⟨clk_perEn s, clk_carEn s, by simp [h.perEn], by simp [h.perEn], by simp [h.carEn], by simp [h.tx]⟩

theorem burstOnTime_clk {p : TimerParams} {s : State} (h : s.BurstOnTime p) : (clk s).BurstOnTime p := by
  obtain hoff | ⟨n, hn, hat⟩ := burstOnTime_iff.1 h
  · exact burstOnTime_iff.2 (.inr ⟨0, burstCycles_pos p, burstAt_zero_clk p hoff⟩)
  · exact burstOnTime_iff.2 (.inr ⟨n, hn, hat.clk⟩)

theorem timerOff_pmatch {p : TimerParams} {s : State} (h : s.BurstOnTime p) : TimerOff (pmatch s) := by
  obtain hoff | ⟨n, -, hat⟩ := burstOnTime_iff.1 h
  · rwa [pmatch_of_disabled hoff.perEn]
  · rw [pmatch_of_enabled hat.perEn]
    exact ⟨rfl, rfl, rfl⟩

/-- Every operation but `TICK` and a `CMATCH` from outside keeps bursts on time, whatever the timer constants. -/
theorem burstOnTime_after {p : TimerParams} {i : Instr} (htick : i ≠ .tick) (hcmatch : i ≠ .cmatch) {s : State}
    (h : s.BurstOnTime p) : (after i s).BurstOnTime p := by
  cases i with
  | nop => exact h
  | clk => exact burstOnTime_clk h
  | dat => exact burstOnTime_congr h (sameTimer_dat s)
  | btn => exact burstOnTime_congr h (sameTimer_sendRequest s)
  | ser b => exact burstOnTime_congr h (sameTimer_ser b s)
  | pmatch => exact burstOnTime_iff.2 (.inl (timerOff_pmatch h))
  | rst => exact burstOnTime_iff.2 (.inl (timerOff_rst s))
  | tick => exact absurd rfl htick
  | cmatch => exact absurd rfl hcmatch

/-- The operations of the Frame Assembler leave a burst at its cycle. -/
theorem burstAt_after {p : TimerParams} {n : Nat} {i : Instr} (hrst : i ≠ .rst) (htick : i ≠ .tick) (hpmatch : i ≠ .pmatch)
    (hcmatch : i ≠ .cmatch) {s : State} (h : s.BurstAt p n) : (after i s).BurstAt p n := by
  cases i with
  | nop => exact h
  | clk => exact h.clk
  | dat => exact h.congr (sameTimer_dat s)
  | btn => exact h.congr (sameTimer_sendRequest s)
  | ser b => exact h.congr (sameTimer_ser b s)
  | rst => exact absurd rfl hrst
  | tick => exact absurd rfl htick
  | pmatch => exact absurd rfl hpmatch
  | cmatch => exact absurd rfl hcmatch

theorem burstOnTime_cycle {p : TimerParams} {s : State} (h : s.BurstOnTime p) (v : PinVector) :
    (cycle p v s).BurstOnTime p :=
  cycle_keeps (P := State.BurstOnTime p) (fun _ => burstOnTime_tick)
    (fun _ _ htick hcmatch => burstOnTime_after htick hcmatch) v h

theorem sameTimer_withInput (s : State) (xs : List Input) : SameTimer s { s with input := xs } :=
  ⟨rfl, rfl, rfl, rfl, rfl, rfl, rfl⟩

/-- Settles O54: a step is nothing, a cycle or an operation; the timer counts in `TICK` alone, and only the word of `CMATCH`
toggles the line out of time (R97 to R99). -/
theorem stepsKeepBurstsOnTime : Obligations.StepsKeepBurstsOnTime := by
  unfold Obligations.StepsKeepBurstsOnTime
  intro s t hs hstep
  constructor
  · intro hin
    obtain ⟨-, rfl⟩ | ⟨v, rest, -, rfl⟩ | ⟨i, rest, hword, rfl⟩ := step_next_cases hstep
    · exact hs
    · exact burstOnTime_cycle (burstOnTime_congr hs (sameTimer_withInput s rest)) v
    · have hon := burstOnTime_congr hs (sameTimer_withInput s rest)
      by_cases htick : i = .tick
      · subst htick
        exact burstOnTime_tick hon
      · refine burstOnTime_after htick ?_ hon
        rintro rfl
        exact hin rest hword
  · intro i rest n hword hrst htick hpmatch hcmatch hat
    obtain rfl : after i { s with input := rest } = t := by
      rwa [step_word hword (decode_encode i), Host.Outcome.next.injEq] at hstep
    exact burstAt_after hrst htick hpmatch hcmatch (hat.congr (sameTimer_withInput s rest))

/-- Settles O56: reset turns the timer off and rests the line (R38). -/
theorem resetIsBetweenBursts : Obligations.ResetIsBetweenBursts := by
  unfold Obligations.ResetIsBetweenBursts
  exact ⟨rfl, rfl, rfl, fun _ => burstOnTime_iff.2 (.inl (timerOff_rst State.reset))⟩

/-! ### The bursts a run starts and ends -/

/-- From the first state to the second, that many bursts started and ended. -/
structure BurstRecords (s t : State) (started ended : Nat) : Prop where
  started : t.records.count .burst = s.records.count .burst + started
  ended : t.records.count .burstEnd = s.records.count .burstEnd + ended

theorem BurstRecords.refl (s : State) : BurstRecords s s 0 0 := ⟨rfl, rfl⟩

theorem BurstRecords.trans {s t u : State} {a b c d : Nat} (hst : BurstRecords s t a b) (htu : BurstRecords t u c d) :
    BurstRecords s u (a + c) (b + d) :=
  ⟨by rw [htu.started, hst.started, Nat.add_assoc], by rw [htu.ended, hst.ended, Nat.add_assoc]⟩

theorem SameTimer.burstRecords {s t : State} (h : SameTimer s t) : BurstRecords s t 0 0 :=
  ⟨by rw [h.records, Nat.add_zero], by rw [h.records, Nat.add_zero]⟩

theorem burstRecords_clk (s : State) : BurstRecords s (clk s) (if s.perEn then 0 else 1) 0 := by
  refine ⟨count_burst_clk s, ?_⟩
  rw [clk_records]
  cases s.perEn <;> cases recognizes s <;> cases !s.rcv && s.snd <;> simp

theorem burstRecords_tick (p : TimerParams) (s : State) :
    BurstRecords s (tick p s) 0 (if periodMatch p s then 1 else 0) := by
  constructor <;> rw [tick_records] <;> cases periodMatch p s <;> simp

/-! ### A cycle, as far as the timer sees it -/

/-- `TICK` and then the clock edge: the events after them do not touch the timer (R57). -/
def timerCycle (p : TimerParams) (v : PinVector) (s : State) : State := if pinClk v then clk (tick p s) else tick p s

theorem sameTimer_lineEvents (v : PinVector) (s : State) : SameTimer s (afterOps (lineEvents v) s) := by
  refine afterOps_keeps (P := SameTimer s) (fun i hi t ht => ?_) (sameTimer_withInput s s.input)
  have hkeeps : SameTimer t (after i t) := by
    obtain rfl | rfl | ⟨b, rfl⟩ := lineEvents_cases hi
    · exact sameTimer_dat t
    · exact sameTimer_sendRequest t
    · exact sameTimer_ser b t
  exact ⟨hkeeps.perEn.trans ht.perEn, hkeeps.carEn.trans ht.carEn, hkeeps.tx.trans ht.tx, hkeeps.preCnt.trans ht.preCnt,
    hkeeps.perCnt.trans ht.perCnt, hkeeps.carCnt.trans ht.carCnt, hkeeps.records.trans ht.records⟩

theorem sameTimer_cycle {v : PinVector} (hv : pinRst v = false) (p : TimerParams) (s : State) :
    SameTimer (timerCycle p v s) (cycle p v s) := by
  have hcycle : cycle p v s = afterOps (lineEvents v) (timerCycle p v s) := by
    rw [cycle_of_not_rst hv, events, afterOps_append, afterOps_strobe]
    rfl
  rw [hcycle]
  exact sameTimer_lineEvents v _

theorem burstRecords_timerCycle (p : TimerParams) (v : PinVector) (s : State) :
    BurstRecords s (timerCycle p v s) (if pinClk v && !(tick p s).perEn then 1 else 0) (if periodMatch p s then 1 else 0) := by
  have htick := burstRecords_tick p s
  unfold timerCycle
  cases pinClk v with
  | false => exact htick
  | true =>
    have hclk := htick.trans (burstRecords_clk (tick p s))
    rw [if_pos rfl, Bool.true_and]
    generalize (tick p s).perEn = armed at hclk ⊢
    cases armed <;> simpa using hclk

theorem burstRecords_cycle {v : PinVector} (hv : pinRst v = false) (p : TimerParams) (s : State) :
    BurstRecords s (cycle p v s) (if pinClk v && !(tick p s).perEn then 1 else 0) (if periodMatch p s then 1 else 0) :=
  (burstRecords_timerCycle p v s).trans (sameTimer_cycle hv p s).burstRecords

/-- Before its last cycle a burst goes on, and no burst starts or ends (R97, R98). -/
theorem burstAt_succ_cycle {p : TimerParams} {n : Nat} {s : State} (h : s.BurstAt p n) {v : PinVector}
    (hv : pinRst v = false) (hn : n + 1 < p.burstCycles) :
    (cycle p v s).BurstAt p (n + 1) ∧ BurstRecords s (cycle p v s) 0 0 := by
  have htick := h.tick hn.ne
  have hmatch : periodMatch p s = false := Bool.eq_false_iff.2 (mt (periodMatch_of_burstAt h).1 hn.ne)
  constructor
  · refine State.BurstAt.congr ?_ (sameTimer_cycle hv p s)
    unfold timerCycle
    split
    exacts [htick.clk, htick]
  · have hrecords := burstRecords_cycle hv p s
    rw [htick.perEn, hmatch] at hrecords
    simpa using hrecords

/-- In its last cycle a burst ends; a clock edge in that cycle starts the next one (R99, R107). -/
theorem cycle_of_burst_last {p : TimerParams} {n : Nat} {s : State} (h : s.BurstAt p n) {v : PinVector}
    (hv : pinRst v = false) (hn : n + 1 = p.burstCycles) :
    (pinClk v = false → TimerOff (cycle p v s)) ∧ (pinClk v = true → (cycle p v s).BurstAt p 0) ∧
    BurstRecords s (cycle p v s) (if pinClk v then 1 else 0) 1 := by
  have hmatch := (periodMatch_of_burstAt h).2 hn
  have hoff := timerOff_tick hmatch
  have hcycle := sameTimer_cycle hv p s
  unfold timerCycle at hcycle
  refine ⟨fun hclk => ?_, fun hclk => ?_, ?_⟩
  · rw [if_neg (by simp [hclk])] at hcycle
    exact hoff.congr hcycle
  · rw [if_pos hclk] at hcycle
    exact (burstAt_zero_clk p hoff).congr hcycle
  · have hrecords := burstRecords_cycle hv p s
    rw [hoff.perEn, hmatch] at hrecords
    simpa using hrecords

/-- The line is at rest at cycle 0 of a burst (R98). -/
theorem tx_of_burstAt_zero {p : TimerParams} {s : State} (h : s.BurstAt p 0) : s.tx = false := by
  simpa using h.tx

/-- Settles O53: the two lemmas above; in the last cycle the line rests, also where a clock edge starts the next burst
(R97 to R99). -/
theorem everyCycleAdvancesTheBurst : Obligations.EveryCycleAdvancesTheBurst := by
  unfold Obligations.EveryCycleAdvancesTheBurst
  intro p n s v h hv
  refine ⟨fun hn => ?_, fun hn => ?_⟩
  · obtain ⟨hat, hrecords⟩ := burstAt_succ_cycle h hv hn
    exact ⟨hat, hrecords.started, hrecords.ended⟩
  · obtain ⟨hoff, hzero, hrecords⟩ := cycle_of_burst_last h hv hn
    have htx : (cycle p v s).tx = false := by
      cases hclk : pinClk v with
      | false => exact (hoff hclk).tx
      | true => exact tx_of_burstAt_zero (hzero hclk)
    exact ⟨htx, hrecords.ended, fun hclk => ⟨(hoff hclk).perEn, (hoff hclk).carEn⟩, hzero⟩

/-! ### A burst from its arming cycle to its end -/

/-- The cycle that arms a timer (R90). -/
theorem burstAt_zero_cycle (p : TimerParams) {s : State} (h : TimerOff s) {v : PinVector} (hv : pinRst v = false)
    (hclk : pinClk v = true) : (cycle p v s).BurstAt p 0 ∧ BurstRecords s (cycle p v s) 1 0 := by
  have htick := tick_of_disabled p h.perEn h.carEn
  have hmatch : periodMatch p s = false := Bool.eq_false_iff.2 fun e => by simpa [h.perEn] using periodMatch_perEn e
  have hcycle := sameTimer_cycle hv p s
  rw [timerCycle, if_pos hclk, htick] at hcycle
  refine ⟨(burstAt_zero_clk p h).congr hcycle, ?_⟩
  have hrecords := burstRecords_cycle hv p s
  rwa [htick, hclk, h.perEn, hmatch] at hrecords

/-- Cycles without reset take a burst on, one cycle each (R97). -/
theorem burstAt_runCycles {p : TimerParams} {n : Nat} {s : State} (h : s.BurstAt p n) {vs : List PinVector}
    (hvs : ∀ u ∈ vs, pinRst u = false) (hn : n + vs.length < p.burstCycles) :
    (runCycles p vs s).BurstAt p (n + vs.length) ∧ BurstRecords s (runCycles p vs s) 0 0 := by
  induction vs generalizing n s with
  | nil => exact ⟨h, .refl s⟩
  | cons v vs ih =>
    rw [List.length_cons] at hn
    obtain ⟨hat, hrecords⟩ := burstAt_succ_cycle h (hvs v List.mem_cons_self) (by omega)
    obtain ⟨hat', hrecords'⟩ := ih hat (fun u hu => hvs u (List.mem_cons_of_mem v hu)) (by omega)
    refine ⟨?_, hrecords.trans hrecords'⟩
    rwa [List.length_cons, Nat.add_comm vs.length 1, ← Nat.add_assoc]

/-- The arming cycle and fewer than `L` cycles after it. -/
theorem burst_from_arming {p : TimerParams} {s : State} (h : TimerOff s) {v : PinVector} {vs : List PinVector}
    (hv : pinRst v = false) (hclk : pinClk v = true) (hvs : ∀ u ∈ vs, pinRst u = false) (hn : vs.length < p.burstCycles) :
    (runCycles p (v :: vs) s).BurstAt p vs.length ∧ BurstRecords s (runCycles p (v :: vs) s) 1 0 := by
  obtain ⟨hat, hrecords⟩ := burstAt_zero_cycle p h hv hclk
  obtain ⟨hat', hrecords'⟩ := burstAt_runCycles hat hvs (by omega)
  exact ⟨by rwa [Nat.zero_add] at hat', hrecords.trans hrecords'⟩

/-- Settles O46: by induction on the cycles after the arming one (R97, R98, R145). -/
theorem burstRunsUndisturbed : Obligations.BurstRunsUndisturbed := by
  unfold Obligations.BurstRunsUndisturbed
  intro p s v vs hper hcar htx hv hclk hvs hn
  obtain ⟨hat, hrecords⟩ := burst_from_arming (p := p) ⟨hper, hcar, htx⟩ hv hclk hvs hn
  exact ⟨hat.perEn, hat.carEn, hat.preCnt, hat.perCnt, hat.carCnt, hat.tx, hrecords.started, hrecords.ended⟩

/-- Settles O47: the burst up to its last cycle, and that cycle (R97, R99, R107). -/
theorem burstEndsOnTime : Obligations.BurstEndsOnTime := by
  unfold Obligations.BurstEndsOnTime
  intro p s v u vs hper hcar htx hv hclk hvs hn hu
  obtain ⟨hat, hrecords⟩ := burst_from_arming (p := p) ⟨hper, hcar, htx⟩ hv hclk hvs (by omega)
  obtain ⟨hoff, hzero, hlast⟩ := cycle_of_burst_last hat hu hn
  have hall := hrecords.trans hlast
  rw [runCycles_append]
  refine ⟨?_, hall.ended, fun hno => ⟨(hoff hno).perEn, (hoff hno).carEn⟩, fun hyes => ?_⟩
  · cases hedge : pinClk u with
    | false => exact (hoff hedge).tx
    | true => exact tx_of_burstAt_zero (hzero hedge)
  · obtain ⟨hper', hcar', hpre, hcnt, hccnt, -⟩ := hzero hyes
    have hstarted := hall.started
    rw [if_pos (show pinClk u = true from hyes)] at hstarted
    exact ⟨hper', hcar', hpre.trans (Nat.zero_mod _), hcnt.trans (Nat.zero_div _), hccnt.trans (Nat.zero_mod _), hstarted⟩

end Sys2Proof.Machine
end

section
/-! PROOF. Cycles and the two profiles (42_system_and_cycle.md R106 to R110): cycles under reset and cycles without an event, what
a cycle does not read, and the untimed run a timed run projects onto. -/

namespace Sys2Proof.Machine

/-! ### Reset, unused pins and the empty cycle -/

theorem runCycles_of_rst (p : TimerParams) {vs : List PinVector} (hvs : ∀ v ∈ vs, pinRst v = true) (s : State) :
    runCycles p vs (rst s) = rst s := by
  induction vs with
  | nil => rfl
  | cons v vs ih =>
    have hagain : rst (rst s) = rst s := rfl
    rw [runCycles, cycle_of_rst (hvs v List.mem_cons_self), hagain]
    exact ih fun u hu => hvs u (List.mem_cons_of_mem v hu)

/-- Settles O28: the first cycle is `RST`, and the others repeat it (R108). -/
theorem heldResetOverridesEverything : Obligations.HeldResetOverridesEverything := by
  unfold Obligations.HeldResetOverridesEverything
  intro p s v vs hvs
  rw [runCycles, cycle_of_rst (hvs v List.mem_cons_self), ← rst_eq]
  exact runCycles_of_rst p (fun u hu => hvs u (List.mem_cons_of_mem v hu)) s

/-- Without a serial strobe a cycle is determined by the other strobes (R65). -/
theorem cycle_congr_of_no_strobe (p : TimerParams) (s : State) {v u : PinVector} (hv : pinSerStb v = false)
    (h : v.extractLsb' 8 5 = u.extractLsb' 8 5) : cycle p v s = cycle p u s := by
  obtain ⟨hrst, hclk, hdat, hbtn, hstb⟩ := strobes_eq v
  obtain ⟨hrst', hclk', hdat', hbtn', hstb'⟩ := strobes_eq u
  have hu : pinSerStb u = false := by rw [hstb', ← h, ← hstb, hv]
  simp only [cycle, hv, hu, hrst, hclk, hdat, hbtn, hrst', hclk', hdat', hbtn', h, Bool.false_eq_true, if_false]

/-- Settles O29: under reset a cycle is `RST`, and the byte is read behind its strobe alone (R65). -/
theorem unusedPinsAreIgnored : Obligations.UnusedPinsAreIgnored := by
  unfold Obligations.UnusedPinsAreIgnored
  exact fun p s v u => ⟨fun hv hu => (cycle_of_rst hv p s).trans (cycle_of_rst hu p s).symm, cycle_congr_of_no_strobe p s⟩

theorem runCycles_waitCycles (p : TimerParams) (n : Nat) {s : State} (hper : s.perEn = false) (hcar : s.carEn = false) :
    runCycles p (waitCycles n) s = s := by
  induction n with
  | zero => rfl
  | succ n ih =>
    rw [waitCycles, List.replicate_succ, runCycles, cycle_zero, tick_of_disabled p hper hcar]
    exact ih

/-- Settles O45: the empty cycle is `TICK`, and with both sources off that and `NOP` leave the state as it is (R106). -/
theorem idleIsStable : Obligations.IdleIsStable := by
  unfold Obligations.IdleIsStable
  intro p s n hper hcar
  refine ⟨runCycles_waitCycles p n hper hcar, ?_, ?_⟩
  · rw [runOps_eq, idle, afterOps_replicate_of_fixed rfl]
  · rw [runOps_eq, waitTicks, afterOps_replicate_of_fixed (i := .tick) (tick_of_disabled _ hper hcar)]

/-! ### The projection of a timed run (R110) -/

theorem projectCycle_of_not_rst {v : PinVector} (hv : pinRst v = false) (p : TimerParams) (s : State) :
    projectCycle p v s = timerEvents p s ++ events v := by
  simp [projectCycle, events, lineEvents, hv]

/-- No operation but `TICK` reads a counter, and what it writes there is lost with the counters (R9). -/
theorem after_dropCounters {i : Instr} (hi : i ≠ .tick) (s : State) : after i s.dropCounters = (after i s).dropCounters := by
  cases i with
  | tick => exact absurd rfl hi
  | nop => rfl
  | rst => rfl
  | clk => apply State.ext <;> simp [after, State.dropCounters, recognizes]
  | dat => apply State.ext <;> simp [after, State.dropCounters, State.isIdle]
  | btn => apply State.ext <;> simp [after, btn, State.dropCounters, State.isIdle]
  | ser b => apply State.ext <;> simp [after, State.dropCounters, accepts, State.isIdle]
  | pmatch => apply State.ext <;> simp [after, State.dropCounters]
  | cmatch => apply State.ext <;> simp [after, State.dropCounters]

theorem afterOps_dropCounters {is : List Instr} (his : ∀ i ∈ is, i ≠ .tick) (s : State) :
    afterOps is s.dropCounters = (afterOps is s).dropCounters :=
  afterOps_keeps_rel (R := fun t u => u = t.dropCounters) (fun i hi t _ h => h ▸ after_dropCounters (his i hi) t) rfl

/-- But for its counting a `TICK` is the matches it finds (R95). -/
theorem afterOps_timerEvents (p : TimerParams) (s : State) :
    (afterOps (timerEvents p s) s).dropCounters = (tick p s).dropCounters := by
  have hper := @periodMatch_perEn p s
  have hcar := @carrierMatch_carEn p s
  unfold timerEvents
  cases hc : carrierMatch p s <;> cases hm : periodMatch p s <;> apply State.ext <;>
    simp_all [after, State.dropCounters]

theorem timerEvents_cases {p : TimerParams} {s : State} {i : Instr} (h : i ∈ timerEvents p s) :
    i = .nop ∨ (i = .cmatch ∧ carrierMatch p s = true) ∨ (i = .pmatch ∧ periodMatch p s = true) := by
  unfold timerEvents at h
  cases hc : carrierMatch p s <;> cases hm : periodMatch p s <;> simp_all

theorem ne_tick_of_mem_projectCycle {p : TimerParams} {v : PinVector} {s : State} {i : Instr}
    (h : i ∈ projectCycle p v s) : i ≠ .tick := by
  cases hv : pinRst v with
  | true =>
    rw [projectCycle, if_pos hv, List.mem_singleton] at h
    simp [h]
  | false =>
    rw [projectCycle_of_not_rst hv, List.mem_append] at h
    rintro rfl
    obtain h | h := h
    · simpa using timerEvents_cases h
    · simpa using events_cases h

theorem afterOps_projectCycle (p : TimerParams) (v : PinVector) (s : State) :
    afterOps (projectCycle p v s) s.dropCounters = (cycle p v s).dropCounters := by
  rw [afterOps_dropCounters fun _ => ne_tick_of_mem_projectCycle]
  cases hv : pinRst v with
  | true =>
    rw [projectCycle, if_pos hv, cycle_of_rst hv]
    rfl
  | false =>
    have hevents : ∀ i ∈ events v, i ≠ .tick := fun i hi => by
      rintro rfl
      simpa using events_cases hi
    rw [projectCycle_of_not_rst hv, cycle_of_not_rst hv, afterOps_append, ← afterOps_dropCounters hevents,
      ← afterOps_dropCounters hevents, afterOps_timerEvents]

theorem afterOps_projectRun (p : TimerParams) (vs : List PinVector) (s : State) :
    afterOps (projectRun p vs s) s.dropCounters = (runCycles p vs s).dropCounters := by
  induction vs generalizing s with
  | nil => rfl
  | cons v vs ih => rw [projectRun, runCycles, afterOps_append, afterOps_projectCycle, ih]

theorem ne_tick_of_mem_projectRun {p : TimerParams} {vs : List PinVector} {s : State} {i : Instr}
    (h : i ∈ projectRun p vs s) : i ≠ .tick := by
  induction vs generalizing s with
  | nil => cases h
  | cons v vs ih => exact (List.mem_append.1 h).elim ne_tick_of_mem_projectCycle ih

/-- Settles O48: cycle by cycle, a `TICK` being its matches and the events being themselves (R110). -/
theorem timedRunsProjectOntoUntimedRuns : Obligations.TimedRunsProjectOntoUntimedRuns := by
  unfold Obligations.TimedRunsProjectOntoUntimedRuns
  refine fun p vs s => ⟨fun i hi => ?_, ?_⟩
  · simpa [Instr.allowedIn] using ne_tick_of_mem_projectRun hi
  · rw [runOps_eq, afterOps_projectRun]

/-! ### Fairness and stray matches (R100) -/

theorem noStrayMatch_cons (i : Instr) (is : List Instr) (s : State) :
    noStrayMatch (i :: is) s ↔
      (i = .pmatch → s.perEn = true) ∧ (i = .cmatch → s.carEn = true) ∧ noStrayMatch is (after i s) := by
  simp [noStrayMatch, exec_eq_after]

theorem noStrayMatch_append (is js : List Instr) (s : State) :
    noStrayMatch (is ++ js) s ↔ noStrayMatch is s ∧ noStrayMatch js (afterOps is s) := by
  induction is generalizing s with
  | nil => simp [noStrayMatch]
  | cons i is ih => simp only [List.cons_append, noStrayMatch_cons, ih, afterOps_cons, and_assoc]

theorem noStrayMatch_of_no_match {is : List Instr} (his : ∀ i ∈ is, i ≠ .pmatch ∧ i ≠ .cmatch) (s : State) :
    noStrayMatch is s := by
  induction is generalizing s with
  | nil => trivial
  | cons i is ih =>
    obtain ⟨hp, hc⟩ := his i List.mem_cons_self
    exact (noStrayMatch_cons i is s).2 ⟨fun e => absurd e hp, fun e => absurd e hc,
      ih (fun j hj => his j (List.mem_cons_of_mem i hj)) _⟩

/-- A `TICK` finds matches of enabled sources only, and a carrier match leaves the period source enabled (R95). -/
theorem noStrayMatch_timerEvents (p : TimerParams) (s : State) : noStrayMatch (timerEvents p s) s.dropCounters := by
  have hper := @periodMatch_perEn p s
  have hcar := @carrierMatch_carEn p s
  unfold timerEvents
  cases hc : carrierMatch p s <;> cases hm : periodMatch p s <;>
    simp_all [noStrayMatch, exec_eq_after, after, State.dropCounters]

theorem noStrayMatch_projectCycle (p : TimerParams) (v : PinVector) (s : State) :
    noStrayMatch (projectCycle p v s) s.dropCounters := by
  cases hv : pinRst v with
  | true =>
    rw [projectCycle, if_pos hv]
    exact noStrayMatch_of_no_match (by simp) _
  | false =>
    rw [projectCycle_of_not_rst hv, noStrayMatch_append]
    refine ⟨noStrayMatch_timerEvents p s, noStrayMatch_of_no_match (fun i hi => ?_) _⟩
    constructor <;> rintro rfl <;> simpa using events_cases hi

theorem noStrayMatch_projectRun (p : TimerParams) (vs : List PinVector) (s : State) :
    noStrayMatch (projectRun p vs s) s.dropCounters := by
  induction vs generalizing s with
  | nil => trivial
  | cons v vs ih =>
    rw [projectRun, noStrayMatch_append, afterOps_projectCycle]
    exact ⟨noStrayMatch_projectCycle p v s, ih _⟩

/-- Settles O52: cycle by cycle, from the state the projection of the cycles before leaves (R100, R110). -/
theorem projectedRunsDeliverNoStrayMatch : Obligations.ProjectedRunsDeliverNoStrayMatch := by
  unfold Obligations.ProjectedRunsDeliverNoStrayMatch
  exact noStrayMatch_projectRun

theorem stateAt_succ (es : Nat → Instr) (s : State) (n : Nat) : stateAt es s (n + 1) = after (es n) (stateAt es s n) := by
  rw [stateAt, exec_eq_after]

/-- Settles O49: fairness delivers a `PMATCH`, and that leaves the period source off (R93, R100). -/
theorem fairUntimedBurstsEnd : Obligations.FairUntimedBurstsEnd := by
  unfold Obligations.FairUntimedBurstsEnd
  intro es s n hfair hon
  obtain ⟨m, hnm, hmatch⟩ := hfair n hon
  refine ⟨m + 1, Nat.lt_succ_of_le hnm, ?_⟩
  rw [stateAt_succ, hmatch]
  exact pmatch_perEn _

end Sys2Proof.Machine
end
